-- ==== Sys2Proof/Word.lean ====
section
/-! DEFINITION. The words of the command interface, the element width and the named codes of the
configuration fields (spec/00_scope.md R6, R12, R13; spec/10_state.md R21 to R23; spec/30_encoding.md R71, R74, R82). -/

namespace Sys2Proof

/-- The 32-bit command word `cw` (R71). -/
abbrev CmdWord := BitVec 32

/-- What the data port holds for one data operand (R74). The block reads the low `W` bits of it
(`Machine.dataOperand`); a well-formed transaction has no other bit set (`Instr.fitsWidth`). -/
abbrev DataWord := BitVec 64

/-- One stored element: a `W`-bit unsigned value (R12, R27), held zero-extended in 64 bits because `W` is a
parameter of the instance (log entry 3). `Memory.wf` says that no bit at or above `W` is set. -/
abbrev Elem := BitVec 64

/-- The element width `W`, one of 8, 16, 32 and 64 (R6). -/
inductive Width where
  | w8
  | w16
  | w32
  | w64
deriving DecidableEq, Repr, Inhabited

/-- `W` as a number of bits (R6). -/
def Width.bits : Width → Nat
  | .w8 => 8
  | .w16 => 16
  | .w32 => 32
  | .w64 => 64

/-- A line level (R13). -/
inductive Level where
  | low
  | high
deriving DecidableEq, Repr, Inhabited

/-- `cfg.protocol` (R21). -/
inductive Protocol where
  | shiftRegister
  | shiftSpi
deriving DecidableEq, Repr, Inhabited

/-- `cfg.bitOrder` (R22). -/
inductive BitOrder where
  | lsbFirst
  | msbFirst
deriving DecidableEq, Repr, Inhabited

/-- `cfg.bitLengthMode` (R23). -/
inductive LenMode where
  | overall
  | each
deriving DecidableEq, Repr, Inhabited

end Sys2Proof
end

