-- ==== Sys2Proof/Syntax.lean ====
section
/-! DEFINITION. The commands, one constructor per row of spec/opcode_table.json, and the transaction that carries
one (spec/30_encoding.md R70 to R76). -/

namespace Sys2Proof

/-- The selector of GETCFG (R105). Selector 3 is no command (R79) and has no constructor. -/
inductive CfgSel where
  /-- `sel = 0`: the configuration word of R83. -/
  | word
  /-- `sel = 1`: `length`. -/
  | length
  /-- `sel = 2`: `W`. -/
  | width
deriving DecidableEq, Repr, Inhabited

/-- A host command (R73). A U operand is the 24-bit ARG field (R72, R76); a data operand is one data word (R74). -/
inductive Instr where
  | setproto (p : Protocol)
  | setorder (o : BitOrder)
  | setmode (m : LenMode)
  | setonesc (b : Bool)
  | setbitlen (n : BitVec 24)
  | resize (n : BitVec 24)
  | fill (d : DataWord)
  | clear
  | setall
  | write (idx : BitVec 24) (d : DataWord)
  | read (idx : BitVec 24)
  | overwrite (n : BitVec 24) (ds : List DataWord)
  | commit
  | autosense
  | getcfg (sel : CfgSel)
deriving DecidableEq, Repr

/-- One transaction from the host: the command word and the data operand list (R70). -/
structure Transaction where
  cw : CmdWord
  data : List DataWord
deriving DecidableEq, Repr

end Sys2Proof
end

