-- ==== Sys2Proof/WellFormed.lean ====
section
/-! DEFINITION. The two checks a command's fields do not carry in their types: the OVERWRITE burst count
(spec/30_encoding.md R75) and the `W`-bit data operand (R74). -/

namespace Sys2Proof

/-- The data words a command carries, in order (R70, R73). -/
def Instr.dataWords : Instr → List DataWord
  | .setproto _ => []
  | .setorder _ => []
  | .setmode _ => []
  | .setonesc _ => []
  | .setbitlen _ => []
  | .resize _ => []
  | .fill d => [d]
  | .clear => []
  | .setall => []
  | .write _ d => [d]
  | .read _ => []
  | .overwrite _ ds => ds
  | .commit => []
  | .autosense => []
  | .getcfg _ => []

/-- An OVERWRITE with `ARG = n` carries exactly `n` data words (R75); the other commands carry their count by
their shape. -/
def Instr.wellFormed : Instr → Bool
  | .setproto _ => true
  | .setorder _ => true
  | .setmode _ => true
  | .setonesc _ => true
  | .setbitlen _ => true
  | .resize _ => true
  | .fill _ => true
  | .clear => true
  | .setall => true
  | .write _ _ => true
  | .read _ => true
  | .overwrite n ds => ds.length == n.toNat
  | .commit => true
  | .autosense => true
  | .getcfg _ => true

/-- Every data operand is a `W`-bit word (R74): the only operands a host can put on a `W`-bit port. -/
def Instr.fitsWidth (w : Width) (i : Instr) : Bool :=
  i.dataWords.all (fun d => decide (d.toNat < 2 ^ w.bits))

end Sys2Proof
end

