-- ==== Sys2Proof/Decode.lean ====
section
/-! DEFINITION. The decoder, total on every transaction and rejecting by name, and after it the encoder
(spec/30_encoding.md R70 to R81; spec/opcode_table.json). -/

namespace Sys2Proof

/-! ### Codes of the one-bit fields (spec/10_state.md R21 to R25) -/

/-- R21: 0 = SHIFT_REGISTER, 1 = SHIFT_SPI. -/
def Protocol.ofBit : Bool → Protocol
  | false => .shiftRegister
  | true => .shiftSpi

/-- R21. -/
def Protocol.toBit : Protocol → Bool
  | .shiftRegister => false
  | .shiftSpi => true

/-- R22: 0 = LSB_FIRST, 1 = MSB_FIRST. -/
def BitOrder.ofBit : Bool → BitOrder
  | false => .lsbFirst
  | true => .msbFirst

/-- R22. -/
def BitOrder.toBit : BitOrder → Bool
  | .lsbFirst => false
  | .msbFirst => true

/-- R23: 0 = OVERALL, 1 = EACH. -/
def LenMode.ofBit : Bool → LenMode
  | false => .overall
  | true => .each

/-- R23. -/
def LenMode.toBit : LenMode → Bool
  | .overall => false
  | .each => true

/-! ### Fields of the command word (R71) -/

/-- `cw[31:28]`. -/
def opField (cw : CmdWord) : BitVec 4 := cw.extractLsb' 28 4

/-- `cw[27:24]`. -/
def rsvField (cw : CmdWord) : BitVec 4 := cw.extractLsb' 24 4

/-- `cw[23:0]`. -/
def argField (cw : CmdWord) : BitVec 24 := cw.extractLsb' 0 24

/-! ### The opcode table -/

/-- The mnemonics of the opcode table (R73). -/
inductive Opcode where
  | setproto | setorder | setmode | setonesc | setbitlen | resize | fill | clear | setall
  | write | read | overwrite | commit | autosense | getcfg
deriving DecidableEq, Repr

/-- A row of spec/opcode_table.json: it matches `cw` when `(cw AND mask) = match` (R80). -/
structure OpRow where
  op : Opcode
  value : CmdWord
  mask : CmdWord
deriving DecidableEq, Repr

/-- R80. -/
def OpRow.hits (r : OpRow) (cw : CmdWord) : Bool := (cw &&& r.mask) == r.value

/-- The rows of spec/opcode_table.json, in its order. -/
def opcodeRows : List OpRow :=
  [ ⟨.setproto, 0x10000000#32, 0xFFFFFFFE#32⟩,
    ⟨.setorder, 0x20000000#32, 0xFFFFFFFE#32⟩,
    ⟨.setmode, 0x30000000#32, 0xFFFFFFFE#32⟩,
    ⟨.setonesc, 0x40000000#32, 0xFFFFFFFE#32⟩,
    ⟨.setbitlen, 0x50000000#32, 0xFF000000#32⟩ ] ++
  [ ⟨.resize, 0x60000000#32, 0xFF000000#32⟩,
    ⟨.fill, 0x70000000#32, 0xFFFFFFFF#32⟩,
    ⟨.clear, 0x80000000#32, 0xFFFFFFFF#32⟩,
    ⟨.setall, 0x90000000#32, 0xFFFFFFFF#32⟩,
    ⟨.write, 0xA0000000#32, 0xFF000000#32⟩ ] ++
  [ ⟨.read, 0xB0000000#32, 0xFF000000#32⟩,
    ⟨.overwrite, 0xC0000000#32, 0xFF000000#32⟩,
    ⟨.commit, 0xD0000000#32, 0xFFFFFFFF#32⟩,
    ⟨.autosense, 0xE0000000#32, 0xFFFFFFFF#32⟩,
    ⟨.getcfg, 0xF0000000#32, 0xFFFFFFFC#32⟩ ]

/-- The number of data words a row's command carries (R73, R75): OVERWRITE as many as its ARG says. -/
def Opcode.dataCount (op : Opcode) (arg : BitVec 24) : Nat :=
  match op with
  | .setproto => 0
  | .setorder => 0
  | .setmode => 0
  | .setonesc => 0
  | .setbitlen => 0
  | .resize => 0
  | .fill => 1
  | .clear => 0
  | .setall => 0
  | .write => 1
  | .read => 0
  | .overwrite => arg.toNat
  | .commit => 0
  | .autosense => 0
  | .getcfg => 0

/-! ### Decoding -/

/-- Why a transaction is IllegalCommand (R250): one name per rule that says so. -/
inductive Illegal where
  /-- `cw[31:28] = 0` (R78). -/
  | opcodeZero
  /-- `cw[27:24] ≠ 0` (R77). -/
  | reservedField
  /-- An ARG bit is set where the format requires 0 (R72). -/
  | argBits
  /-- GETCFG with `sel = 3` (R79). -/
  | selectorThree
  /-- The data list has another length than the opcode takes (R70, R75). -/
  | dataCount
deriving DecidableEq, Repr

/-- The name of the rule under which no row matches `cw` (R72, R77, R78). -/
def whyNoRow (cw : CmdWord) : Illegal :=
  if opField cw = 0#4 then .opcodeZero
  else if rsvField cw = 0#4 then .argBits
  else .reservedField

/-- A command without data words (R70). -/
def noData (data : List DataWord) (i : Instr) : Except Illegal Instr :=
  match data with
  | [] => .ok i
  | _ :: _ => .error .dataCount

/-- A command with exactly one data word (R70). -/
def oneData (data : List DataWord) (f : DataWord → Instr) : Except Illegal Instr :=
  match data with
  | [d] => .ok (f d)
  | _ => .error .dataCount

/-- S format: `sel = ARG[1:0]` (R76); 3 is no selector (R79). -/
def decodeSel (sel : BitVec 2) : Except Illegal CfgSel :=
  match sel.toNat with
  | 0 => .ok .word
  | 1 => .ok .length
  | 2 => .ok .width
  | _ => .error .selectorThree

/-- The operands of a matched row (R74 to R76). -/
def operands (op : Opcode) (cw : CmdWord) (data : List DataWord) : Except Illegal Instr :=
  match op with
  | .setproto => noData data (.setproto (Protocol.ofBit (cw.getLsbD 0)))
  | .setorder => noData data (.setorder (BitOrder.ofBit (cw.getLsbD 0)))
  | .setmode => noData data (.setmode (LenMode.ofBit (cw.getLsbD 0)))
  | .setonesc => noData data (.setonesc (cw.getLsbD 0))
  | .setbitlen => noData data (.setbitlen (argField cw))
  | .resize => noData data (.resize (argField cw))
  | .fill => oneData data .fill
  | .clear => noData data .clear
  | .setall => noData data .setall
  | .write => oneData data (.write (argField cw))
  | .read => noData data (.read (argField cw))
  | .overwrite => if data.length = (argField cw).toNat then .ok (.overwrite (argField cw) data) else .error .dataCount
  | .commit => noData data .commit
  | .autosense => noData data .autosense
  | .getcfg =>
    match decodeSel (cw.extractLsb' 0 2) with
    | .ok sel => noData data (.getcfg sel)
    | .error r => .error r

/-- The decode function (R80): the row whose masked bits match, then its operands and its data count. -/
def decode (t : Transaction) : Except Illegal Instr :=
  match opcodeRows.find? (fun r => r.hits t.cw) with
  | some r => operands r.op t.cw t.data
  | none => .error (whyNoRow t.cw)

/-! ### Encoding -/

/-- A command word from its OP and ARG fields, RSV zero (R71, R77). -/
def commandWord (op : BitVec 4) (arg : BitVec 24) : CmdWord := op ++ 0#4 ++ arg

/-- B format: `ARG[0] = b`, the rest 0 (R72). -/
def argOfBit (b : Bool) : BitVec 24 := if b then 1#24 else 0#24

/-- S format: `ARG[1:0] = sel`, the rest 0 (R72). -/
def argOfSel : CfgSel → BitVec 24
  | .word => 0#24
  | .length => 1#24
  | .width => 2#24

/-- The transaction that carries a command (R71 to R75). -/
def encode : Instr → Transaction
  | .setproto p => ⟨commandWord 0x1#4 (argOfBit p.toBit), []⟩
  | .setorder o => ⟨commandWord 0x2#4 (argOfBit o.toBit), []⟩
  | .setmode m => ⟨commandWord 0x3#4 (argOfBit m.toBit), []⟩
  | .setonesc b => ⟨commandWord 0x4#4 (argOfBit b), []⟩
  | .setbitlen n => ⟨commandWord 0x5#4 n, []⟩
  | .resize n => ⟨commandWord 0x6#4 n, []⟩
  | .fill d => ⟨commandWord 0x7#4 0#24, [d]⟩
  | .clear => ⟨commandWord 0x8#4 0#24, []⟩
  | .setall => ⟨commandWord 0x9#4 0#24, []⟩
  | .write idx d => ⟨commandWord 0xA#4 idx, [d]⟩
  | .read idx => ⟨commandWord 0xB#4 idx, []⟩
  | .overwrite n ds => ⟨commandWord 0xC#4 n, ds⟩
  | .commit => ⟨commandWord 0xD#4 0#24, []⟩
  | .autosense => ⟨commandWord 0xE#4 0#24, []⟩
  | .getcfg sel => ⟨commandWord 0xF#4 (argOfSel sel), []⟩

/-! ### The host's word test -/

/-- The data words, all zero, that complete the command word `cw` to a transaction of its row; none where no row
matches. -/
def zeroData (cw : CmdWord) : List DataWord :=
  match opcodeRows.find? (fun r => r.hits cw) with
  | some r => List.replicate (r.op.dataCount (argField cw)) 0#64
  | none => []

/-- The transaction whose bits, numbered as the opcode table numbers them, are `w` below bit `nbits` and 0 above:
the command word is bits 31..0 and every operand word is zero. -/
def tableTransaction (nbits w : Nat) : Transaction :=
  let cw := BitVec.ofNat 32 (w % 2 ^ nbits)
  ⟨cw, zeroData cw⟩

/-- The instruction the decoder reads from `tableTransaction`. -/
def decodeTableWord (nbits w : Nat) : Option Instr :=
  match decode (tableTransaction nbits w) with
  | .ok i => some i
  | .error _ => none

end Sys2Proof
end

