-- ==== Sys2Proof/Config.lean ====
section
/-! DEFINITION. What an instance of the block fixes (spec/00_scope.md R6 to R11), and the one free value of the
model: the level the environment puts on the sense line (spec/44_autosense.md R226). -/

namespace Sys2Proof

/-- The parameters of one instance (R6 to R11). The spec's model "takes each parameter below as an argument":
they are carried in `State.params`, which no step writes, so a statement over all states is a statement over
all instances (log entry 1). -/
structure Params where
  /-- `W` (R6). -/
  width : Width
  /-- `MAX_LEN` (R7). -/
  maxLen : Nat
  /-- `MAX_BANK_COUNT` (R8). -/
  maxBankCount : Nat
  /-- `FLUSH_COMMITS` (R9). -/
  flushCommits : Nat
  /-- `FLUSH_DELAY_MS` (R10). -/
  flushDelayMs : Nat
  /-- `SENSE_DELAY_MS` (R10). -/
  senseDelayMs : Nat
  /-- `RESET_BIT_ORDER` (R11). -/
  resetBitOrder : BitOrder
deriving DecidableEq, Repr

/-- The bounds the spec sets on the parameters: R7, R8, R9. The last clause, `MAX_BANK_COUNT < 2^64`, is DEDUCED
from R82 and R228: the bank count is returned in a 64-bit value (log entry 4). -/
abbrev Params.legal (p : Params) : Prop :=
  1 ≤ p.maxLen ∧ p.maxLen ≤ 2 ^ 24 - 1 ∧ 1 ≤ p.maxBankCount ∧
  1 ≤ p.flushCommits ∧ p.flushCommits ≤ p.maxBankCount ∧ p.maxBankCount < 2 ^ 64

namespace Config

/-- DESIGN CHOICE (log entry 2): the one instance `State.reset` stands for. `W = 8` and `LSB_FIRST` are the
conventions of spec/95_test_vectors.md, `FLUSH_COMMITS = MAX_BANK_COUNT = 8` its program P3; the spec leaves
`MAX_LEN` and the two delays open. `State.resetWith` is reset for every instance. -/
def params : Params where
  width := .w8
  maxLen := 16
  maxBankCount := 8
  flushCommits := 8
  flushDelayMs := 1
  senseDelayMs := 2
  resetBitOrder := .lsbFirst

/-- FREE VALUE (R226, U10; log entry 8): the level of the `n`-th sense sample for which `State.senseIn` supplies
none. It has no body: nothing constrains it. -/
opaque freeSense : Nat → Level

end Config

end Sys2Proof
end

