-- ==== Sys2Proof/Machine/State.lean ====
section
/-! DEFINITION. The state of the block (spec/10_state.md R20 to R37), its ports to the host and to the GPIO
collaborator, the two reasons a step can stop, and reset (spec/70_reset_and_hazards.md R280). Plain data. -/

namespace Sys2Proof.Machine

/-! ### Configuration, pins, calibrator context -/

/-- The configuration registers (R21 to R25). `bitLength` is the 7-bit field of R24. -/
structure Cfg where
  protocol : Protocol
  bitOrder : BitOrder
  bitLengthMode : LenMode
  bitLength : BitVec 7
  onesComplement : Bool
deriving DecidableEq, Repr

/-- An output line (R261). -/
inductive OutPin where
  | data
  | clock
  | latch
deriving DecidableEq, Repr

/-- The levels last driven on the output lines, and whether the sense line is an input (R31, R32). -/
structure Pins where
  data : Level
  clock : Level
  latch : Level
  senseInput : Bool
deriving DecidableEq, Repr

/-- The calibrator's context (R34). -/
structure Cal where
  bank : Nat
  flush : Nat
  slot : Nat
deriving DecidableEq, Repr

/-! ### The sequencer (R30) -/

/-- Where a commit goes at END: `ret` of R189. -/
inductive Ret where
  /-- IDLE: a COMMIT command. -/
  | idle
  /-- AS_FLUSH_DELAY: a zero-flush commit of AUTOSENSE (R230). -/
  | flushDelay
  /-- AS_CLEAR: a marker-propagation commit of AUTOSENSE (R230). -/
  | clear
deriving DecidableEq, Repr

/-- The COMMIT sub-states, in the order of R189's table: CM_LATCH_LO, CM_CLOCK_LO, CM_NEXT, CM_DATA, CM_CLK_HI,
CM_CLK_LO, CM_LATCH_HI, CM_LATCH_IDLE, END. -/
inductive CommitSub where
  | latchLo
  | clockLo
  | next
  | data
  | clkHi
  | clkLo
  | latchHi
  | latchIdle
  | done
deriving DecidableEq, Repr

/-- The cursors a COMMIT sub-state carries (R189): `k` the position in the traversal order, `e` the element
index, `v` the latched transmitted value, `i` the bit step. -/
structure Cursor where
  k : Nat
  e : Nat
  v : Elem
  i : Nat
deriving DecidableEq, Repr

/-- The cursors on entry to CM_LATCH_LO. Each one is written before it is read (log entry 10). -/
def Cursor.start : Cursor := ⟨0, 0, 0#64, 0⟩

/-- The AUTOSENSE sub-states, in the order of R230's table: AS_INPUT, AS_ZERO, AS_FLUSH, AS_FLUSH_DELAY, AS_MARK,
AS_LOOP, AS_CLEAR, AS_SETTLE, AS_SAMPLE. -/
inductive CalibSub where
  | input
  | zero
  | flush
  | flushDelay
  | mark
  | loop
  | clear
  | settle
  | sample
deriving DecidableEq, Repr

/-- The sequencer state `seq` (R30). -/
inductive SeqState where
  | idle
  | commit (sub : CommitSub) (cur : Cursor) (ret : Ret)
  | calib (sub : CalibSub)
deriving DecidableEq, Repr

/-! ### Ports -/

/-- The status of a response (R82, R250). -/
inductive Status where
  | ok
  | configError
  | allocError
  | indexError
  | illegalCommand
deriving DecidableEq, Repr

/-- A response: a status and a 64-bit value (R82). -/
structure Response where
  status : Status
  value : BitVec 64
deriving DecidableEq, Repr

/-- A GPIO event (R262). The sense line is the only line that is ever an input, so `setInputMode` and `readLevel`
name no pin. -/
inductive Event where
  | writeLevel (p : OutPin) (l : Level)
  | setInputMode
  | readLevel (l : Level)
  | delay (ms : Nat)
deriving DecidableEq, Repr

/-- A transaction the host is going to present, and when (log entry 6). `early = none`: the host keeps the command
protocol and presents it when the block is idle (R62). `early = some n`: it presents it after `n` more steps
even if the block is still busy then, which R62 calls a host protocol violation. -/
structure Request where
  txn : Transaction
  early : Option Nat
deriving DecidableEq, Repr

/-! ### The state -/

/-- The state: the record of R20, the instance's parameters (log entry 1), and the block's ports: what the host is
going to present, the sense levels the environment is going to supply, and the two outputs of a run (R290). -/
structure State where
  /-- The parameters of the instance (R6 to R11). No step writes them. -/
  params : Params
  /-- The configuration registers (R21 to R25). -/
  cfg : Cfg
  /-- The number of live elements (R26). -/
  length : Nat
  /-- The element buffer (R27). -/
  buf : List Elem
  /-- The bit counter (R29). -/
  bitCounter : Nat
  /-- The sequencer (R30). -/
  seq : SeqState
  /-- Line levels and sense mode (R31, R32). -/
  pins : Pins
  /-- The calibrator's context (R34). -/
  cal : Cal
  /-- The model-level fault mark (R35). -/
  faulted : Bool
  /-- What the host is going to present, the next transaction first (R59, R70). -/
  inbox : List Request
  /-- The sense levels the environment is going to supply, the next one first (R226, R36). -/
  senseIn : List Level
  /-- MODEL'S OWN: how many sense samples have been drawn from `Config.freeSense` (log entry 8). -/
  senseDraws : Nat
  /-- The GPIO trace so far, oldest event first (R262). -/
  trace : List Event
  /-- The responses so far, oldest first (R82, R290). -/
  responses : List Response
deriving DecidableEq, Repr

/-! ### How a step can stop -/

/-- Why the machine stops. -/
inductive Fault where
  /-- Raised by every step from a state whose `faulted` mark is set: the model-level fault HostOverlap, after which
  "no later step is taken" (R35, R257). It is the spec's own. Safe: a run that stops proves nothing about its outcome. -/
  | hostOverlap
  /-- Raised by the sequencer at CM_NEXT and AS_MARK when the traversal names an index the buffer does not hold.
  Only a state that breaks R28 can raise it, and no run reaches one (log entry 11). Safe. -/
  | indexOutsideBuffer
deriving DecidableEq, Repr

/-- Why a command has no meaning. -/
inductive Refusal where
  /-- Raised by a refused arm of `exec` for a command not modelled yet. No arm is refused. Safe. -/
  | notModelled (mnemonic : String)
deriving DecidableEq, Repr

/-! ### Reset -/

/-- The state after reset of the instance with parameters `p` (R37, R280): every value is the spec's. The ports
start with nothing presented, nothing supplied and nothing produced (log entry 9). -/
def State.resetWith (p : Params) : State where
  params := p
  cfg :=
    { protocol := .shiftRegister
      bitOrder := p.resetBitOrder
      bitLengthMode := .overall
      bitLength := BitVec.ofNat 7 p.width.bits
      onesComplement := false }
  length := 1
  buf := [0#64]
  bitCounter := 0
  seq := .idle
  pins := { data := .low, clock := .low, latch := .low, senseInput := false }
  cal := { bank := 0, flush := 0, slot := 0 }
  faulted := false
  inbox := []
  senseIn := []
  senseDraws := 0
  trace := []
  responses := []

/-- The machine right after reset, for the instance of `Config.params` (log entry 2). -/
def State.reset : State := State.resetWith Config.params

end Sys2Proof.Machine
end

