-- ==== Sys2Proof/Machine/Operands.lean ====
section
/-! DEFINITION. Operands and elements: the `W`-bit data operand, the element values the commands use, and the
zero-extensions of the response value (spec/00_scope.md R12; spec/30_encoding.md R74, R76, R82). -/

namespace Sys2Proof.Machine

/-- The `W` bits of a stored element (R12). -/
def elemBits (w : Width) (x : Elem) : BitVec w.bits := x.setWidth w.bits

/-- A `W`-bit value as a stored element, zero-extended (R12). -/
def elemOf (w : Width) (x : BitVec w.bits) : Elem := x.setWidth 64

/-- The data operand is the `W` bits on the data port, used unchanged (R74; log entry 3). -/
def dataOperand (w : Width) (d : DataWord) : Elem := elemOf w (d.setWidth w.bits)

/-- `~v` on `W` bits (R12). -/
def elemNot (w : Width) (x : Elem) : Elem := elemOf w (~~~ (elemBits w x))

/-- `2^W − 1`, the all-ones element (R133). -/
def elemOnes (w : Width) : Elem := elemOf w (BitVec.allOnes w.bits)

/-- `1 << (W−1)`, the marker of AUTOSENSE (R224). -/
def elemMarker (w : Width) : Elem := elemOf w (BitVec.twoPow w.bits (w.bits - 1))

/-- A U operand: ARG as an unsigned number (R76). -/
def uOperand (arg : BitVec 24) : Nat := arg.toNat

/-- A number as a response value: `zext_64` (R82). -/
def valueOf (n : Nat) : BitVec 64 := BitVec.ofNat 64 n

/-- `zext_64(buf[i])` (R82, R135). -/
def elemValue (x : Elem) : BitVec 64 := x

end Sys2Proof.Machine
end

