-- ==== Sys2Proof/Machine/Flags.lean ====
section
/-! DEFINITION. The block has no condition flags (spec/10_state.md R33). What it reports instead: the 3-bit status
code of a response and the configuration word of GETCFG (spec/30_encoding.md R82, R83), and the levels that bits
and marker drive (spec/00_scope.md R13; spec/44_autosense.md R227). -/

namespace Sys2Proof.Machine

/-- The 3-bit status code (R82). The codes 5, 6 and 7 are never produced (U18). -/
def Status.code : Status → BitVec 3
  | .ok => 0#3
  | .configError => 1#3
  | .allocError => 2#3
  | .indexError => 3#3
  | .illegalCommand => 4#3

/-- One bit as one bit of a word. -/
def bit (b : Bool) : BitVec 1 := BitVec.ofBool b

/-- The configuration word (R83): bits 63:11 zero, 10:4 `bitLength`, 3 `onesComplement`, 2 `bitLengthMode`,
1 `bitOrder`, 0 `protocol`. -/
def configWord (c : Cfg) : BitVec 64 :=
  0#53 ++ c.bitLength ++ bit c.onesComplement ++ bit c.bitLengthMode.toBit ++ bit c.bitOrder.toBit ++
    bit c.protocol.toBit

/-- The level a bit drives (R13). -/
def levelOf : Bool → Level
  | false => .low
  | true => .high

/-- The level that says the marker has arrived (R227). -/
def markLevel (c : Cfg) : Level := if c.onesComplement then .low else .high

end Sys2Proof.Machine
end

