-- ==== Sys2Proof/Machine/Ops.lean ====
section
/-! DEFINITION. The shared operations of the pseudocode (spec/00_scope.md R14): emit, sample, respond, raise, reading
and writing the buffer, setting the sequencer, and the acceptance of a command (spec/20_memory.md R62). -/

namespace Sys2Proof.Machine

/-- The outcome of a command or a step. -/
abbrev Result := Host.Outcome State Fault Refusal

/-! ### The element buffer -/

/-- The form of the buffer (R27, R28): exactly `length` elements, each of `W` bits. The buffer is dense, so it has
one form for each content (log entry 12). -/
def Memory.wf (w : Width) (length : Nat) (buf : List Elem) : Bool :=
  decide (buf.length = length) && buf.all (fun x => decide (x.toNat < 2 ^ w.bits))

/-- `MemRead(i)`: the element at index `i`, none where the index is not valid (R50, R51). -/
def memRead (s : State) (idx : Nat) : Option Elem := if idx < s.length then s.buf[idx]? else none

/-- `MemWrite(i, v)` (R14). -/
def memWrite (s : State) (idx : Nat) (v : Elem) : State := { s with buf := s.buf.set idx v }

/-- `for i in [0 .. length-1]: buf[i] <- v` (R131 to R133, R222). -/
def memFill (s : State) (v : Elem) : State := { s with buf := List.replicate s.length v }

/-- `length` and contents replaced together (R130, R136). -/
def memReplace (s : State) (xs : List Elem) : State := { s with length := xs.length, buf := xs }

/-! ### Configuration, counters, sequencer -/

/-- `cfg.f <- v` for the fields `c` holds. -/
def setCfg (s : State) (c : Cfg) : State := { s with cfg := c }

/-- `bitCounter <- n` (R29). -/
def setBitCounter (s : State) (n : Nat) : State := { s with bitCounter := n }

/-- `cal.f <- v` for the fields `c` holds (R34). -/
def setCal (s : State) (c : Cal) : State := { s with cal := c }

/-- `seq <- q` (R14, R30). -/
def setSeq (s : State) (q : SeqState) : State := { s with seq := q }

/-! ### The GPIO port -/

/-- The pins after an event (R31, R32, R262): `writeLevel(p, l)` sets `pins.p`, `setInputMode(sense)` sets
`pins.senseInput`. -/
def Pins.after (p : Pins) : Event → Pins
  | .writeLevel .data l => { p with data := l }
  | .writeLevel .clock l => { p with clock := l }
  | .writeLevel .latch l => { p with latch := l }
  | .setInputMode => { p with senseInput := true }
  | .readLevel _ => p
  | .delay _ => p

/-- `emit E` (R14, R262). -/
def emit (s : State) (e : Event) : State := { s with pins := s.pins.after e, trace := s.trace ++ [e] }

/-- The level of the next sense sample: what the environment supplies, else a free value (R226). -/
def senseLevel (s : State) : Level :=
  match s.senseIn with
  | l :: _ => l
  | [] => Config.freeSense s.senseDraws

/-- The sense input after a sample: the supplied level is used up, or one more free value has been drawn. -/
def takeSense (s : State) : State :=
  match s.senseIn with
  | _ :: ls => { s with senseIn := ls }
  | [] => { s with senseDraws := s.senseDraws + 1 }

/-- `sample(sense)`, which emits `readLevel(sense) -> l` (R14, R226). The level is `senseLevel s`. -/
def sample (s : State) : State := emit (takeSense s) (.readLevel (senseLevel s))

/-! ### Ending a command -/

/-- `respond(status, value)` (R14, R82). -/
def respond (s : State) (st : Status) (value : BitVec 64) : State :=
  { s with responses := s.responses ++ [⟨st, value⟩] }

/-- `raise <Error>` (R14, R252): the response `(status, 0)` and nothing else. The block has no trap: control does
not transfer, nothing is saved, and `seq` is IDLE as before the command (R254, R255). -/
def raise (s : State) (st : Status) : State := respond s st 0#64

/-! ### Accepting a command -/

/-- The model-level fault HostOverlap (R62, R257): the mark is set, and the command presented has no effect. -/
def hostOverlap (s : State) : State := { s with faulted := true }

/-- A command is presented (R62, R253): a marked block takes no step, a busy block marks the fault, and an idle
block runs the command. -/
def accept (s : State) (run : State → State) : Result :=
  match s.faulted, s.seq with
  | true, _ => .fault .hostOverlap
  | false, .idle => .next (run s)
  | false, .commit _ _ _ => .next (hostOverlap s)
  | false, .calib _ => .next (hostOverlap s)

end Sys2Proof.Machine
end

