-- ==== Sys2Proof/Machine/BitPolicy.lean ====
section
/-! DEFINITION. The Bit Policy (spec/42_bit_policy.md R160 to R168): traversal order, bit index, bit cap,
transmitted value, and the data bits of a commit in closed form. -/

namespace Sys2Proof.Machine

/-- `B`: `cfg.bitLength` as a number (R24). -/
def bitBudget (c : Cfg) : Nat := c.bitLength.toNat

/-- The traversal order (R160). -/
def order (c : Cfg) (len : Nat) : List Nat :=
  match c.bitOrder with
  | .lsbFirst => List.range len
  | .msbFirst => (List.range len).reverse

/-- The element bit tested at bit step `i` (R161). It is used for `i < B` only. -/
def bitIndex (c : Cfg) (i : Nat) : Nat :=
  match c.bitOrder with
  | .lsbFirst => i
  | .msbFirst => bitBudget c - 1 - i

/-- The per-element bit cap (R162). -/
def maxBits (w : Width) (c : Cfg) : Nat :=
  match c.bitLengthMode with
  | .each => bitBudget c
  | .overall => w.bits

/-- The transmitted value (R163). -/
def tx (w : Width) (c : Cfg) (x : Elem) : Elem := if c.onesComplement then elemNot w x else x

/-- The bit the multiplexer selects on the latched value at bit step `i` (R163). -/
def txBit (c : Cfg) (v : Elem) (i : Nat) : Bool := v.getLsbD (bitIndex c i)

/-- The bits one element emits when nothing cuts it short: `[ d(e, i) | i ← [0 .. B-1] ]` of R165. -/
def elementBits (w : Width) (c : Cfg) (x : Elem) : List Bool :=
  (List.range (bitBudget c)).map (fun i => txBit c (tx w c x) i)

/-- The elements in traversal order. `order c buf.length` names only indices of `buf`, so the default is not
used. -/
def visited (c : Cfg) (buf : List Elem) : List Elem := (order c buf.length).map (fun e => buf.getD e 0#64)

/-- The data bits a commit emits, in emission order (R165). -/
def bits (w : Width) (c : Cfg) (buf : List Elem) : List Bool :=
  match c.bitLengthMode with
  | .overall => ((visited c buf).take 1).flatMap (elementBits w c)
  | .each => (visited c buf).flatMap (elementBits w c)

end Sys2Proof.Machine
end

