-- ==== Sys2Proof/Machine/Commit.lean ====
section
/-! DEFINITION. The Shift-Out Engine: COMMIT and the commit state machine (spec/43_commit.md R180 to R193). The
command starts the machine; the block's steps then run its rows (R189), at most one event a step. -/

namespace Sys2Proof.Machine

/-- Whether `cfg.bitLengthMode = OVERALL`: `OV` of R189. -/
def isOverall (c : Cfg) : Bool :=
  match c.bitLengthMode with
  | .overall => true
  | .each => false

/-- A commit enters the machine at CM_LATCH_LO with `ret` set (R189, R230). -/
def startCommit (s : State) (ret : Ret) : State := setSeq s (.commit .latchLo Cursor.start ret)

/-- COMMIT (R180). Accepting it starts the state machine of R189; the machine's own steps transmit, latch and
respond. -/
def execCommit (s : State) : Result := accept s fun s => startCommit s .idle

/-- The sequencer state a commit returns to at END (R189). -/
def Ret.target : Ret → SeqState
  | .idle => .idle
  | .flushDelay => .calib .flushDelay
  | .clear => .calib .clear

/-- CM_LATCH_LO: step 1, first event (R181). -/
def cmLatchLo (cur : Cursor) (ret : Ret) (s : State) : State :=
  setSeq (emit s (.writeLevel .latch .low)) (.commit .clockLo cur ret)

/-- CM_CLOCK_LO: step 1, second event, and the counter reset (R181). -/
def cmClockLo (cur : Cursor) (ret : Ret) (s : State) : State :=
  setSeq (setBitCounter (emit s (.writeLevel .clock .low)) 0) (.commit .next { cur with k := 0 } ret)

/-- The element start of CM_NEXT (R183): `e`, `v` and `i` are set, and under EACH the counter restarts. -/
def cmStartElement (cur : Cursor) (ret : Ret) (e : Nat) (x : Elem) (s : State) : State :=
  setSeq (setBitCounter s (if isOverall s.cfg then s.bitCounter else 0))
    (.commit .data { cur with e := e, v := tx s.params.width s.cfg x, i := 0 } ret)

/-- CM_NEXT, silent (R182, R164): the traversal ends after the last index, or under OVERALL when the budget is
spent; else the next element starts. -/
def cmNext (cur : Cursor) (ret : Ret) (s : State) : Result :=
  if cur.k = s.length ∨ (isOverall s.cfg ∧ bitBudget s.cfg ≤ s.bitCounter) then
    .next (setSeq s (.commit .latchHi cur ret))
  else
    match (order s.cfg s.length)[cur.k]? with
    | none => .fault .indexOutsideBuffer
    | some e =>
      match memRead s e with
      | none => .fault .indexOutsideBuffer
      | some x => .next (cmStartElement cur ret e x s)

/-- CM_DATA (R184): the data line takes the selected bit's level, or the element is complete. -/
def cmData (cur : Cursor) (ret : Ret) (s : State) : State :=
  if cur.i = maxBits s.params.width s.cfg then setSeq s (.commit .next { cur with k := cur.k + 1 } ret)
  else
    setSeq (emit s (.writeLevel .data (levelOf (txBit s.cfg cur.v cur.i)))) (.commit .clkHi cur ret)

/-- CM_CLK_HI (R184). -/
def cmClkHi (cur : Cursor) (ret : Ret) (s : State) : State :=
  setSeq (emit s (.writeLevel .clock .high)) (.commit .clkLo cur ret)

/-- CM_CLK_LO (R184): the pulse ends and the bit is counted; a spent budget ends the traversal under OVERALL and
the element under EACH (R164). -/
def cmClkLo (cur : Cursor) (ret : Ret) (s : State) : State :=
  let s' := setBitCounter (emit s (.writeLevel .clock .low)) (s.bitCounter + 1)
  if bitBudget s.cfg ≤ s.bitCounter + 1 then
    if isOverall s.cfg then setSeq s' (.commit .latchHi { cur with i := cur.i + 1 } ret)
    else setSeq s' (.commit .next { cur with k := cur.k + 1, i := cur.i + 1 } ret)
  else setSeq s' (.commit .data { cur with i := cur.i + 1 } ret)

/-- CM_LATCH_HI: step 3 (R185), and whether the latch controller re-lowers the line (R186). -/
def cmLatchHi (cur : Cursor) (ret : Ret) (s : State) : State :=
  setSeq (emit s (.writeLevel .latch .high))
    (match s.cfg.protocol with
     | .shiftRegister => .commit .latchIdle cur ret
     | .shiftSpi => .commit .done cur ret)

/-- CM_LATCH_IDLE: step 4 under SHIFT_REGISTER (R186). -/
def cmLatchIdle (cur : Cursor) (ret : Ret) (s : State) : State :=
  setSeq (emit s (.writeLevel .latch .low)) (.commit .done cur ret)

/-- END, silent (R189): a COMMIT command responds; a commit of the calibrator goes back to it. -/
def cmDone (ret : Ret) (s : State) : State :=
  match ret with
  | .idle => setSeq (respond s .ok 0#64) .idle
  | .flushDelay => setSeq s Ret.flushDelay.target
  | .clear => setSeq s Ret.clear.target

/-- One step of the commit state machine (R189). -/
def commitStep (sub : CommitSub) (cur : Cursor) (ret : Ret) (s : State) : Result :=
  match sub with
  | .latchLo => .next (cmLatchLo cur ret s)
  | .clockLo => .next (cmClockLo cur ret s)
  | .next => cmNext cur ret s
  | .data => .next (cmData cur ret s)
  | .clkHi => .next (cmClkHi cur ret s)
  | .clkLo => .next (cmClkLo cur ret s)
  | .latchHi => .next (cmLatchHi cur ret s)
  | .latchIdle => .next (cmLatchIdle cur ret s)
  | .done => .next (cmDone ret s)

end Sys2Proof.Machine
end

