-- ==== Sys2Proof/Machine/Autosense.lean ====
section
/-! DEFINITION. The Auto-Sense Calibrator: AUTOSENSE and its state machine (spec/44_autosense.md R220 to R233). The
command starts the machine; the block's steps then run its rows (R230), and the rows of R189 for its commits. -/

namespace Sys2Proof.Machine

/-- AUTOSENSE (R220). Accepting it starts the state machine of R230. -/
def execAutosense (s : State) : Result := accept s fun s => setSeq s (.calib .input)

/-- AS_INPUT: step 1 (R221). -/
def asInput (s : State) : State := setSeq (emit s .setInputMode) (.calib .zero)

/-- AS_ZERO, silent: the zero pattern (R222, R223). -/
def asZero (s : State) : State :=
  setSeq (setCal (memFill s 0#64) { s.cal with flush := 0 }) (.calib .flush)

/-- AS_FLUSH, silent: the next zero-flush commit, or step 3 after `FLUSH_COMMITS` of them (R222). -/
def asFlush (s : State) : State :=
  if s.cal.flush = s.params.flushCommits then setSeq s (.calib .mark) else startCommit s .flushDelay

/-- AS_FLUSH_DELAY: the settle delay after a zero-flush commit (R222). -/
def asFlushDelay (s : State) : State :=
  setSeq (setCal (emit s (.delay s.params.flushDelayMs)) { s.cal with flush := s.cal.flush + 1 }) (.calib .flush)

/-- AS_MARK, silent: the marker goes into the first transmission slot (R224). -/
def asMark (s : State) : Result :=
  match (order s.cfg s.length)[0]? with
  | none => .fault .indexOutsideBuffer
  | some slot =>
    .next (setSeq (setCal (memWrite s slot (elemMarker s.params.width)) { s.cal with slot := slot, bank := 0 })
      (.calib .loop))

/-- AS_LOOP, silent: the bank counter, and a marker-propagation commit (R225). -/
def asLoop (s : State) : State :=
  startCommit (setCal s { s.cal with bank := s.cal.bank + 1 }) .clear

/-- AS_CLEAR, silent: the marker is cleared from the pattern (R225). -/
def asClear (s : State) : State := setSeq (memWrite s s.cal.slot 0#64) (.calib .settle)

/-- AS_SETTLE: the settle delay before a sample (R225). -/
def asSettle (s : State) : State := setSeq (emit s (.delay s.params.senseDelayMs)) (.calib .sample)

/-- AS_SAMPLE: the sample decides whether the command responds or loops (R226 to R228). -/
def asSample (s : State) : State :=
  if senseLevel s = markLevel s.cfg ∨ s.cal.bank = s.params.maxBankCount then
    setSeq (respond (sample s) .ok (valueOf s.cal.bank)) .idle
  else setSeq (sample s) (.calib .loop)

/-- One step of the calibrator's state machine (R230). -/
def calibStep (sub : CalibSub) (s : State) : Result :=
  match sub with
  | .input => .next (asInput s)
  | .zero => .next (asZero s)
  | .flush => .next (asFlush s)
  | .flushDelay => .next (asFlushDelay s)
  | .mark => asMark s
  | .loop => .next (asLoop s)
  | .clear => .next (asClear s)
  | .settle => .next (asSettle s)
  | .sample => .next (asSample s)

end Sys2Proof.Machine
end

