-- ==== Sys2Proof/Machine/Buffer.lean ====
section
/-! DEFINITION. The Buffer Manager commands (spec/41_buffer_manager.md R130 to R137). None emits an event or changes
`cfg`, and each makes its checks before it writes (R252). -/

namespace Sys2Proof.Machine

/-- RESIZE (R130). -/
def execResize (n : BitVec 24) (s : State) : Result :=
  accept s fun s =>
    if uOperand n = 0 then raise s .configError
    else if s.params.maxLen < uOperand n then raise s .allocError
    else respond (memReplace s (List.replicate (uOperand n) 0#64)) .ok 0#64

/-- FILL (R131). -/
def execFill (d : DataWord) (s : State) : Result :=
  accept s fun s => respond (memFill s (dataOperand s.params.width d)) .ok 0#64

/-- CLEAR (R132). -/
def execClear (s : State) : Result :=
  accept s fun s => respond (memFill s 0#64) .ok 0#64

/-- SETALL (R133). -/
def execSetall (s : State) : Result :=
  accept s fun s => respond (memFill s (elemOnes s.params.width)) .ok 0#64

/-- WRITE (R134). -/
def execWrite (idx : BitVec 24) (d : DataWord) (s : State) : Result :=
  accept s fun s =>
    if s.length ≤ uOperand idx then raise s .indexError
    else respond (memWrite s (uOperand idx) (dataOperand s.params.width d)) .ok 0#64

/-- READ (R135). -/
def execRead (idx : BitVec 24) (s : State) : Result :=
  accept s fun s =>
    match memRead s (uOperand idx) with
    | none => raise s .indexError
    | some x => respond s .ok (elemValue x)

/-- OVERWRITE (R136). The decoder has already rejected a burst of another length (R75); a term that carries one is
the same IllegalCommand. -/
def execOverwrite (n : BitVec 24) (ds : List DataWord) (s : State) : Result :=
  accept s fun s =>
    if ds.length ≠ uOperand n then raise s .illegalCommand
    else if uOperand n = 0 then raise s .configError
    else if s.params.maxLen < uOperand n then raise s .allocError
    else respond (memReplace s (ds.map (dataOperand s.params.width))) .ok 0#64

end Sys2Proof.Machine
end

