-- ==== Sys2Proof/Machine/Configuration.lean ====
section
/-! DEFINITION. The configuration commands (spec/40_configuration.md R100 to R106). None emits an event or touches
the buffer. -/

namespace Sys2Proof.Machine

/-- SETPROTO (R100). -/
def execSetproto (p : Protocol) (s : State) : Result :=
  accept s fun s => respond (setCfg s { s.cfg with protocol := p }) .ok 0#64

/-- SETORDER (R101). -/
def execSetorder (o : BitOrder) (s : State) : Result :=
  accept s fun s => respond (setCfg s { s.cfg with bitOrder := o }) .ok 0#64

/-- SETMODE (R102). -/
def execSetmode (m : LenMode) (s : State) : Result :=
  accept s fun s => respond (setCfg s { s.cfg with bitLengthMode := m }) .ok 0#64

/-- SETONESC (R103). -/
def execSetonesc (b : Bool) (s : State) : Result :=
  accept s fun s => respond (setCfg s { s.cfg with onesComplement := b }) .ok 0#64

/-- SETBITLEN (R104): a value above `W` is rejected, never clamped. -/
def execSetbitlen (n : BitVec 24) (s : State) : Result :=
  accept s fun s =>
    if s.params.width.bits < uOperand n then raise s .configError
    else respond (setCfg s { s.cfg with bitLength := BitVec.ofNat 7 (uOperand n) }) .ok 0#64

/-- The value GETCFG returns (R105): the configuration word, `length`, or `W`. -/
def cfgValue (sel : CfgSel) (s : State) : BitVec 64 :=
  match sel with
  | .word => configWord s.cfg
  | .length => valueOf s.length
  | .width => valueOf s.params.width.bits

/-- GETCFG (R105). -/
def execGetcfg (sel : CfgSel) (s : State) : Result :=
  accept s fun s => respond s .ok (cfgValue sel s)

end Sys2Proof.Machine
end

