-- ==== Sys2Proof/Machine/Dispatch.lean ====
section
/-! DEFINITION. The meaning of each command: one arm per constructor of Instr. -/

namespace Sys2Proof.Machine

/-- The host presents the command `i` to the block in state `s` (spec/30_encoding.md R73; spec/20_memory.md R62). -/
def exec (i : Instr) (s : State) : Host.Outcome State Fault Refusal :=
  match i with
  | .setproto p => Sys2Proof.Machine.execSetproto p s
  | .setorder o => Sys2Proof.Machine.execSetorder o s
  | .setmode m => Sys2Proof.Machine.execSetmode m s
  | .setonesc b => Sys2Proof.Machine.execSetonesc b s
  | .setbitlen n => Sys2Proof.Machine.execSetbitlen n s
  | .resize n => Sys2Proof.Machine.execResize n s
  | .fill d => Sys2Proof.Machine.execFill d s
  | .clear => Sys2Proof.Machine.execClear s
  | .setall => Sys2Proof.Machine.execSetall s
  | .write idx d => Sys2Proof.Machine.execWrite idx d s
  | .read idx => Sys2Proof.Machine.execRead idx s
  | .overwrite n ds => Sys2Proof.Machine.execOverwrite n ds s
  | .commit => Sys2Proof.Machine.execCommit s
  | .autosense => Sys2Proof.Machine.execAutosense s
  | .getcfg sel => Sys2Proof.Machine.execGetcfg sel s

end Sys2Proof.Machine
end

