-- ==== Sys2Proof/Machine/Acceptance.lean ====
section
/-! DEFINITION. What one step of the block is: a transaction of the host is presented and decoded, or the sequencer
takes a step of the command in flight (spec/20_memory.md R59, R62; spec/30_encoding.md R80; spec/60_exceptions.md
R250 to R257). -/

namespace Sys2Proof.Machine

/-- IllegalCommand (R250, R252): a transaction that decodes to no command. The host-protocol check comes first
(R253). -/
def illegalCommand (s : State) : Result := accept s fun s => raise s .illegalCommand

/-- A transaction is presented to the block (R62, R80): what it decodes to runs, else it is IllegalCommand. -/
def present (t : Transaction) (s : State) : Result :=
  match decode t with
  | .ok i => exec i s
  | .error _ => illegalCommand s

/-- The sequencer's own step (R189, R230). An idle block emits nothing and changes nothing on its own (R60; log
entry 7). -/
def sequencerStep (s : State) : Result :=
  match s.seq with
  | .idle => .next s
  | .commit sub cur ret => commitStep sub cur ret s
  | .calib sub => calibStep sub s

/-- The state in which the first request of the inbox has left it. -/
def setInbox (s : State) (rest : List Request) : State := { s with inbox := rest }

/-- A busy block and the next request (R62; log entry 6): a host that waits lets the sequencer step; one that does
not wait presents its transaction once its time has come. -/
def busyStep (r : Request) (rest : List Request) (s : State) : Result :=
  match r.early with
  | none => sequencerStep s
  | some 0 => present r.txn (setInbox s rest)
  | some (n + 1) => sequencerStep (setInbox s ({ r with early := some n } :: rest))

/-- One step of a block whose fault mark is not set. -/
def runningStep (s : State) : Result :=
  match s.inbox, s.seq with
  | [], _ => sequencerStep s
  | r :: rest, .idle => present r.txn (setInbox s rest)
  | r :: rest, .commit _ _ _ => busyStep r rest s
  | r :: rest, .calib _ => busyStep r rest s

/-- One step of the block. A marked block takes none (R35, R257). -/
def blockStep (s : State) : Result :=
  match s.faulted with
  | true => .fault .hostOverlap
  | false => runningStep s

/-- The transaction stands first in the inbox of an idle, unmarked block: the very next step presents it. -/
def presentNext (s : State) (t : Transaction) : State :=
  { s with inbox := ⟨t, none⟩ :: s.inbox, seq := .idle, faulted := false }

end Sys2Proof.Machine
end

