-- ==== Sys2Proof/Machine/Step.lean ====
section
/-! DEFINITION. One step of the machine, and the state whose next step runs a given command word. -/

namespace Sys2Proof.Machine

/-- One step (spec/20_memory.md R59, R62). -/
def step (s : State) : Host.Outcome State Fault Refusal := blockStep s

/-- `s` with the command word `w`, its operand words zero, presented to the block by the very next step. The block
fetches nothing (R63): a program is the host's list of transactions (log entry 13). -/
def State.withFetchWord (s : State) (nbits w : Nat) : State := presentNext s (tableTransaction nbits w)

end Sys2Proof.Machine
end

