-- ==== Sys2Proof/Machine/ClosedForm.lean ====
section
/-! DEFINITION. COMMIT and AUTOSENSE as whole commands: the pseudocode of spec/43_commit.md R180 and
spec/44_autosense.md R220, and the closed forms of R187, R190, R228 and R231. No step calls them; the statements
compare the state machines of R189 and R230, which the steps run, with them. -/

namespace Sys2Proof.Machine

/-! ### COMMIT -/

/-- One pass of the bit-emission step (R184, 1 to 4). -/
def emitBit (v : Elem) (i : Nat) (s : State) : State :=
  let s₁ := emit s (.writeLevel .data (levelOf (txBit s.cfg v i)))
  let s₂ := emit (emit s₁ (.writeLevel .clock .high)) (.writeLevel .clock .low)
  setBitCounter s₂ (s.bitCounter + 1)

/-- The bit loop of R180, with `n` passes left and bit step `i` next: whether it signals stop, and the state. -/
def bitLoop (v : Elem) : Nat → Nat → State → Bool × State
  | 0, _, s => (false, s)
  | n + 1, i, s =>
    let s' := emitBit v i s
    if bitBudget s.cfg ≤ s'.bitCounter then (true, s') else bitLoop v n (i + 1) s'

/-- The bits of one element in R180: `v` is latched, under EACH the counter restarts, and the bit loop runs. -/
def emitElement (e : Nat) (s : State) : Bool × State :=
  bitLoop (tx s.params.width s.cfg (s.buf.getD e 0#64)) (maxBits s.params.width s.cfg) 0
    (setBitCounter s (if isOverall s.cfg then s.bitCounter else 0))

/-- The element loop of R180 over the indices still to visit. -/
def traverse : List Nat → State → State
  | [], s => s
  | e :: rest, s =>
    if isOverall s.cfg ∧ bitBudget s.cfg ≤ s.bitCounter then s
    else
      let r := emitElement e s
      if r.1 && isOverall s.cfg then r.2 else traverse rest r.2

/-- The latch controller's part of R180 (R185, R186). -/
def latchOut (s : State) : State :=
  match s.cfg.protocol with
  | .shiftRegister => emit (emit s (.writeLevel .latch .high)) (.writeLevel .latch .low)
  | .shiftSpi => emit s (.writeLevel .latch .high)

/-- A commit: the pseudocode of R180 without its response. -/
def runCommit (s : State) : State :=
  let s₁ := emit (emit s (.writeLevel .latch .low)) (.writeLevel .clock .low)
  latchOut (traverse (order s.cfg s.length) (setBitCounter s₁ 0))

/-- The whole COMMIT command (R180). -/
def wholeCommit (s : State) : State := respond (runCommit s) .ok 0#64

/-- The three events of one data bit (R187). -/
def bitEvents (b : Bool) : List Event :=
  [.writeLevel .data (levelOf b), .writeLevel .clock .high, .writeLevel .clock .low]

/-- The last events of a commit (R187). -/
def latchEvents (c : Cfg) : List Event :=
  match c.protocol with
  | .shiftRegister => [.writeLevel .latch .high, .writeLevel .latch .low]
  | .shiftSpi => [.writeLevel .latch .high]

/-- `trace_commit(cfg, buf)` (R187). -/
def commitTrace (w : Width) (c : Cfg) (buf : List Elem) : List Event :=
  [.writeLevel .latch .low, .writeLevel .clock .low] ++ (bits w c buf).flatMap bitEvents ++ latchEvents c

/-- `pins.data` after a commit: the level of the last bit, or unchanged where there is none (R190). -/
def commitDataLevel (w : Width) (c : Cfg) (buf : List Elem) (before : Level) : Level :=
  match (bits w c buf).getLast? with
  | some b => levelOf b
  | none => before

/-- `pins.latch` after a commit (R186, R190). -/
def commitLatchLevel (c : Cfg) : Level :=
  match c.protocol with
  | .shiftRegister => .low
  | .shiftSpi => .high

/-- `bitCounter` after a commit (R190). -/
def commitCounter (w : Width) (c : Cfg) (buf : List Elem) : Nat :=
  match c.bitLengthMode with
  | .overall => (bits w c buf).length
  | .each => bitBudget c

/-- The state a commit ends in (R187, R190), without its response. -/
def commitEnd (s : State) : State :=
  { s with
    trace := s.trace ++ commitTrace s.params.width s.cfg s.buf
    pins :=
      { data := commitDataLevel s.params.width s.cfg s.buf s.pins.data
        clock := .low
        latch := commitLatchLevel s.cfg
        senseInput := s.pins.senseInput }
    bitCounter := commitCounter s.params.width s.cfg s.buf }

/-! ### AUTOSENSE -/

/-- The flush loop of R220, with `n` commits left. -/
def flushLoop : Nat → State → State
  | 0, s => s
  | n + 1, s =>
    let s' := emit (runCommit s) (.delay s.params.flushDelayMs)
    flushLoop n (setCal s' { s'.cal with flush := s'.cal.flush + 1 })

/-- One pass of the propagation loop of R220 up to the sample. -/
def markCommit (s : State) : State :=
  let s' := runCommit (setCal s { s.cal with bank := s.cal.bank + 1 })
  emit (memWrite s' s'.cal.slot 0#64) (.delay s'.params.senseDelayMs)

/-- The propagation loop of R220, with `n` passes left. It responds before they run out. -/
def markLoop : Nat → State → State
  | 0, s => s
  | n + 1, s =>
    let s' := markCommit s
    if senseLevel s' = markLevel s'.cfg ∨ s'.cal.bank = s'.params.maxBankCount then
      respond (sample s') .ok (valueOf s'.cal.bank)
    else markLoop n (sample s')

/-- The first transmission slot (R160, R224). -/
def firstSlot (c : Cfg) (len : Nat) : Nat := (order c len).headD 0

/-- The whole AUTOSENSE command: the pseudocode of R220. -/
def wholeAutosense (s : State) : State :=
  let s₁ := emit s .setInputMode
  let s₂ := setCal (memFill s₁ 0#64) { s₁.cal with flush := 0 }
  let s₃ := flushLoop s₂.params.flushCommits s₂
  let slot := firstSlot s₃.cfg s₃.length
  markLoop s₃.params.maxBankCount
    (setCal (memWrite s₃ slot (elemMarker s₃.params.width)) { s₃.cal with slot := slot, bank := 0 })

/-- The level of the `j`-th sample, counted from 0, that a run from `s` takes (R226). -/
def sampleAt (s : State) (j : Nat) : Level :=
  match s.senseIn[j]? with
  | some l => l
  | none => Config.freeSense (s.senseDraws + (j - s.senseIn.length))

/-- The bank count AUTOSENSE returns (R228): the least `j` in `1 … MAX_BANK_COUNT` whose sample is the marker level,
else `MAX_BANK_COUNT`. -/
def bankCount (s : State) : Nat :=
  match (List.range s.params.maxBankCount).find? (fun j => decide (sampleAt s j = markLevel s.cfg)) with
  | some j => j + 1
  | none => s.params.maxBankCount

/-- `Z` of R231: the all-zero buffer. -/
def zeroBuf (s : State) : List Elem := List.replicate s.length 0#64

/-- `M` of R231: the marker in the first transmission slot, every other element zero. -/
def markerBuf (s : State) : List Elem :=
  (zeroBuf s).set (firstSlot s.cfg s.length) (elemMarker s.params.width)

/-- A commit of the buffer `buf` in an AUTOSENSE, and the events up to its sample (R231). -/
def senseTrace (s : State) (buf : List Elem) (j : Nat) : List Event :=
  commitTrace s.params.width s.cfg buf ++ [.delay s.params.senseDelayMs, .readLevel (sampleAt s j)]

/-- `trace_autosense` (R231). -/
def autosenseTrace (s : State) : List Event :=
  [.setInputMode] ++
  (List.replicate s.params.flushCommits
    (commitTrace s.params.width s.cfg (zeroBuf s) ++ [.delay s.params.flushDelayMs])).flatten ++
  senseTrace s (markerBuf s) 0 ++
  (List.range (bankCount s - 1)).flatMap (fun j => senseTrace s (zeroBuf s) (j + 1))

/-- The buffer of the last commit of an AUTOSENSE (R225): the marker's where one sample was enough, else zeros. -/
def lastSenseBuf (s : State) : List Elem := if bankCount s = 1 then markerBuf s else zeroBuf s

/-- The state an AUTOSENSE ends in (R223, R228, R231, R232). -/
def autosenseEnd (s : State) : State :=
  { s with
    buf := zeroBuf s
    trace := s.trace ++ autosenseTrace s
    responses := s.responses ++ [⟨.ok, valueOf (bankCount s)⟩]
    pins :=
      { data := commitDataLevel s.params.width s.cfg (lastSenseBuf s) s.pins.data
        clock := .low
        latch := commitLatchLevel s.cfg
        senseInput := true }
    bitCounter := commitCounter s.params.width s.cfg (lastSenseBuf s)
    cal := { bank := bankCount s, flush := s.params.flushCommits, slot := firstSlot s.cfg s.length }
    senseIn := s.senseIn.drop (bankCount s)
    senseDraws := s.senseDraws + (bankCount s - s.senseIn.length) }

end Sys2Proof.Machine
end

