-- ==== Sys2Proof/Safety.lean ====
section
/-! DEFINITION. The terms the claims use: runs of several steps, a block ready for a command, a host that keeps the
command protocol, and the invariant every step keeps (spec/10_state.md R28, R29, R34; spec/43_commit.md R192;
spec/44_autosense.md R223, R229). -/

namespace Sys2Proof.Machine

/-- `n` steps, stopping at the first fault or refusal. -/
def stepN : Nat → State → Result
  | 0, s => .next s
  | n + 1, s =>
    match step s with
    | .next t => stepN n t
    | .fault f => .fault f
    | .refused r => .refused r

/-- The block is ready for a command: idle and unmarked (R28, R62). -/
abbrev Ready (s : State) : Prop := s.seq = .idle ∧ s.faulted = false

/-- The next request of the host, if any, waits for the response of the command in flight (R62, R283). -/
def hostWaits (s : State) : Bool :=
  match s.inbox with
  | [] => true
  | r :: _ => r.early.isNone

/-- The host presents the transaction `t` to a ready block, and `rest` is what it presents after it (R59, R70). -/
abbrev Presented (s : State) (t : Transaction) (rest : List Request) : Prop :=
  Ready s ∧ ∃ early, s.inbox = ⟨t, early⟩ :: rest

/-- The state with one more response (R82). -/
abbrev responded (s : State) (st : Status) (value : BitVec 64) : State :=
  { s with responses := s.responses ++ [⟨st, value⟩] }

/-- The statuses a command can report (R250, R251). -/
def canReport : Instr → List Status
  | .setproto _ => [.ok]
  | .setorder _ => [.ok]
  | .setmode _ => [.ok]
  | .setonesc _ => [.ok]
  | .setbitlen _ => [.ok, .configError]
  | .resize _ => [.ok, .configError, .allocError]
  | .fill _ => [.ok]
  | .clear => [.ok]
  | .setall => [.ok]
  | .write _ _ => [.ok, .indexError]
  | .read _ => [.ok, .indexError]
  | .overwrite _ _ => [.ok, .configError, .allocError, .illegalCommand]
  | .commit => []
  | .autosense => []
  | .getcfg _ => [.ok]

/-- The block's record of R20 in one value. -/
structure BlockState where
  cfg : Cfg
  length : Nat
  buf : List Elem
  bitCounter : Nat
  seq : SeqState
  pins : Pins
  cal : Cal
  faulted : Bool
deriving DecidableEq, Repr

/-- The record of R20 in a state. -/
def State.block (s : State) : BlockState where
  cfg := s.cfg
  length := s.length
  buf := s.buf
  bitCounter := s.bitCounter
  seq := s.seq
  pins := s.pins
  cal := s.cal
  faulted := s.faulted

/-! ### The invariant -/

/-- The cursors name an element of the traversal and its transmitted value (R183, R189): `k` stays in the traversal,
`e` is the index it names there, `v` its latched transmitted value, and the bit step is the number of bits counted
for this element. Under OVERALL only the first slot is ever visited (R165). -/
def atElement (cur : Cursor) (s : State) : Prop :=
  (order s.cfg s.length)[cur.k]? = some cur.e ∧ s.buf[cur.e]?.map (tx s.params.width s.cfg) = some cur.v ∧
  s.bitCounter = cur.i ∧ (s.cfg.bitLengthMode = .overall → cur.k = 0)

/-- The cursors and the counter at a commit sub-state (R189, R192): the bit step stays below `B` while a bit is being
sent, and the counter never exceeds `B`. -/
def commitInv (sub : CommitSub) (cur : Cursor) (s : State) : Prop :=
  match sub with
  | .latchLo => True
  | .clockLo => True
  | .next =>
    cur.k ≤ s.length ∧ s.bitCounter ≤ bitBudget s.cfg ∧
    (s.cfg.bitLengthMode = .overall → cur.k = 0 ∧ s.bitCounter = 0)
  | .data => atElement cur s ∧ cur.i ≤ bitBudget s.cfg ∧
    (s.cfg.bitLengthMode = .overall → cur.i < bitBudget s.cfg)
  | .clkHi => atElement cur s ∧ cur.i < bitBudget s.cfg
  | .clkLo => atElement cur s ∧ cur.i < bitBudget s.cfg
  | .latchHi => s.bitCounter ≤ bitBudget s.cfg
  | .latchIdle => s.bitCounter ≤ bitBudget s.cfg ∧ s.cfg.protocol = .shiftRegister
  | .done => s.bitCounter ≤ bitBudget s.cfg ∧ s.pins.latch = commitLatchLevel s.cfg

/-- The pattern in the buffer when the commit numbered `bank` of the propagation loop runs (R223, R225): the marker
in the first, zeros after it. -/
def patternInv (bank : Nat) (s : State) : Prop :=
  s.cal.slot = firstSlot s.cfg s.length ∧ s.buf = if bank = 1 then markerBuf s else zeroBuf s

/-- The calibrator's context and pattern at a sub-state (R34, R223, R229). -/
def calibInv (sub : CalibSub) (s : State) : Prop :=
  match sub with
  | .input => True
  | .zero => s.pins.senseInput = true
  | .flush => s.pins.senseInput = true ∧ s.buf = zeroBuf s
  | .flushDelay => s.pins.senseInput = true ∧ s.buf = zeroBuf s ∧ s.cal.flush < s.params.flushCommits
  | .mark => s.pins.senseInput = true ∧ s.buf = zeroBuf s
  | .loop => s.pins.senseInput = true ∧ s.cal.bank < s.params.maxBankCount ∧ patternInv (s.cal.bank + 1) s
  | .clear => s.pins.senseInput = true ∧ 1 ≤ s.cal.bank ∧ patternInv s.cal.bank s
  | .settle => s.pins.senseInput = true ∧ 1 ≤ s.cal.bank ∧ patternInv 0 s
  | .sample => s.pins.senseInput = true ∧ 1 ≤ s.cal.bank ∧ patternInv 0 s

/-- What the sub-state a commit returns to asks for already holds while the commit runs. -/
def retInv (ret : Ret) (s : State) : Prop :=
  match ret with
  | .idle => True
  | .flushDelay => calibInv .flushDelay s
  | .clear => calibInv .clear s

/-- The sequencer's own part of the invariant. -/
def seqInv (s : State) : Prop :=
  match s.seq with
  | .idle => True
  | .commit sub cur ret => commitInv sub cur s ∧ retInv ret s
  | .calib sub => calibInv sub s

/-- The invariant: the bounds of the parameters (R7 to R9), of `length` (R26), `bitLength` (R24) and `bitCounter`
(R29), the form of the buffer (R27, R28), the ranges of the calibrator's counters (R34), and the sequencer's
own part. The block keeps R28 in flight too. -/
structure Inv (s : State) : Prop where
  params_legal : s.params.legal
  length_pos : 1 ≤ s.length
  length_le : s.length ≤ s.params.maxLen
  buf_wf : Memory.wf s.params.width s.length s.buf = true
  bitLength_le : bitBudget s.cfg ≤ s.params.width.bits
  bitCounter_le : s.bitCounter ≤ s.params.width.bits
  bank_le : s.cal.bank ≤ s.params.maxBankCount
  flush_le : s.cal.flush ≤ s.params.flushCommits
  seq_ok : seqInv s

end Sys2Proof.Machine
end

