-- ==== Sys2Proof/Certificates/Slice0/Obligations.lean ====
section
/-! DEFINITION. The statements for the provers. -/

open Sys2Proof Sys2Proof.Machine

/-! ### Encoding (spec/30_encoding.md) -/

/-- R80 on words of spec/95_test_vectors.md 2.1, 2.2, 2.3 and 3, written out from R71 to R76: one for each format, and
one for each reason of IllegalCommand. -/
def Obligations.DecodeReadsWrittenOutWords : Prop :=
  decode ⟨0x10000001#32, []⟩ = .ok (.setproto .shiftSpi) ∧
  decode ⟨0x20000001#32, []⟩ = .ok (.setorder .msbFirst) ∧
  decode ⟨0x50100009#32, []⟩ = .ok (.setbitlen 0x100009#24) ∧
  decode ⟨0x70000000#32, [0x5A#64]⟩ = .ok (.fill 0x5A#64) ∧
  decode ⟨0xA0000001#32, [0x80#64]⟩ = .ok (.write 1#24 0x80#64) ∧
  decode ⟨0xC0000003#32, [0x0F#64, 0x33#64, 0xA5#64]⟩ = .ok (.overwrite 3#24 [0x0F#64, 0x33#64, 0xA5#64]) ∧
  decode ⟨0xE0000000#32, []⟩ = .ok .autosense ∧
  decode ⟨0xF0000002#32, []⟩ = .ok (.getcfg .width) ∧
  decode ⟨0x00000000#32, []⟩ = .error .opcodeZero ∧
  decode ⟨0xD1000000#32, []⟩ = .error .reservedField ∧
  decode ⟨0x10000002#32, []⟩ = .error .argBits ∧
  decode ⟨0xF0000003#32, []⟩ = .error .selectorThree ∧
  decode ⟨0xC0000002#32, [0x01#64]⟩ = .error .dataCount

/-- R71 to R76: the decoder gives back every well-formed command the encoder writes. -/
def Obligations.DecodeOfEncodeIsTheCommand : Prop :=
  ∀ i : Instr, i.wellFormed = true → decode (encode i) = .ok i

/-- R80, R81: a transaction that decodes to a command is the only transaction of that command, and the command is
well formed. No bit of a legal command word is ignored. -/
def Obligations.DecodedTransactionIsItsEncoding : Prop :=
  ∀ (t : Transaction) (i : Instr), decode t = .ok i → encode i = t ∧ i.wellFormed = true

/-- R80: "No two rows match the same word." -/
def Obligations.OpcodeRowsNeverOverlap : Prop :=
  ∀ (r₁ r₂ : OpRow) (cw : CmdWord), r₁ ∈ opcodeRows → r₂ ∈ opcodeRows →
    r₁.hits cw = true → r₂.hits cw = true → r₁ = r₂

/-- R77: a transaction whose reserved field is not zero is IllegalCommand whatever its OP, its ARG and its data. -/
def Obligations.ReservedFieldRaisesIllegalCommand : Prop :=
  ∀ (s : State) (t : Transaction) (rest : List Request), Presented s t rest → t.cw.extractLsb' 24 4 ≠ 0#4 →
    step s = .next (responded (setInbox s rest) .illegalCommand 0#64)

/-- R78. -/
def Obligations.OpcodeZeroRaisesIllegalCommand : Prop :=
  ∀ (s : State) (t : Transaction) (rest : List Request), Presented s t rest → t.cw.extractLsb' 28 4 = 0#4 →
    step s = .next (responded (setInbox s rest) .illegalCommand 0#64)

/-- R79. -/
def Obligations.SelectorThreeRaisesIllegalCommand : Prop :=
  ∀ (s : State) (data : List DataWord) (rest : List Request), Presented s ⟨0xF0000003#32, data⟩ rest →
    step s = .next (responded (setInbox s rest) .illegalCommand 0#64)

/-- R72: an ARG bit set where the format requires 0 is IllegalCommand. B: opcodes 1 to 4, `ARG[23:1]`. N: opcodes 7,
8, 9, 0xD, 0xE, `ARG[23:0]`. S: opcode 0xF, `ARG[23:2]`. -/
def Obligations.MustBeZeroArgBitRaisesIllegalCommand : Prop :=
  ∀ (s : State) (t : Transaction) (rest : List Request), Presented s t rest →
    ((t.cw.extractLsb' 28 4 ∈ [0x1#4, 0x2#4, 0x3#4, 0x4#4] ∧ t.cw.extractLsb' 1 23 ≠ 0#23) ∨
     (t.cw.extractLsb' 28 4 ∈ [0x7#4, 0x8#4, 0x9#4, 0xD#4, 0xE#4] ∧ t.cw.extractLsb' 0 24 ≠ 0#24) ∨
     (t.cw.extractLsb' 28 4 = 0xF#4 ∧ t.cw.extractLsb' 2 22 ≠ 0#22)) →
    step s = .next (responded (setInbox s rest) .illegalCommand 0#64)

/-- R70, R75: the command word of a command with a data list of another length is IllegalCommand. -/
def Obligations.WrongDataCountRaisesIllegalCommand : Prop :=
  ∀ (s : State) (i : Instr) (data : List DataWord) (rest : List Request),
    Presented s ⟨(encode i).cw, data⟩ rest → i.wellFormed = true → data.length ≠ i.dataWords.length →
    step s = .next (responded (setInbox s rest) .illegalCommand 0#64)

/-! ### The step (spec/20_memory.md R59, R62) -/

/-- R59, R70, R80: a step of a ready block runs the command the next transaction decodes to, with the transaction
taken off the inbox. The second clause is the model's choice (log entry 13, DESIGN CHOICE): the block fetches no
program, and `withFetchWord` stands for a host that presents one more transaction to an idle, unmarked block; the next
step from that state runs the command its word decodes to. -/
def Obligations.StepRunsThePresentedCommand : Prop :=
  (∀ (s : State) (t : Transaction) (rest : List Request) (i : Instr), Presented s t rest → decode t = .ok i →
    step s = exec i (setInbox s rest)) ∧
  (∀ (s : State) (nbits w : Nat) (i : Instr), decodeTableWord nbits w = some i →
    step (s.withFetchWord nbits w) = exec i { s with seq := .idle, faulted := false })

/-- While the host waits, a busy block runs the rows of its state machine (R189, R230); a ready block with nothing
presented stays as it is (the model's choice, log entry 7). -/
def Obligations.SequencerStepsWhileTheHostWaits : Prop :=
  (∀ (s : State) (sub : CommitSub) (cur : Cursor) (ret : Ret), s.faulted = false → s.seq = .commit sub cur ret →
    hostWaits s = true → step s = commitStep sub cur ret s) ∧
  (∀ (s : State) (sub : CalibSub), s.faulted = false → s.seq = .calib sub → hostWaits s = true →
    step s = calibStep sub s) ∧
  (∀ s : State, Ready s → s.inbox = [] → step s = .next s)

/-- Derived from R35, R62 and R257: a command presented while `seq ≠ IDLE` sets the fault mark and has no other effect,
whatever the command, and the block takes no further step. That the overlap answers a marked next state, in which the
command in flight stays where it was, and that the fault `hostOverlap` is the answer of the step after it, is the
model's reading (log entry 14, DEDUCED). -/
def Obligations.CommandInFlightMarksHostOverlap : Prop :=
  ∀ (s : State) (i : Instr), s.faulted = false → s.seq ≠ .idle →
    exec i s = .next { s with faulted := true } ∧ step { s with faulted := true } = .fault .hostOverlap

/-- R62, R253 for a transaction of any content, legal or not, and a host that does not wait: its time to present runs
down one step at a time while the sequencer steps (the model's choice, log entry 6), and when it has come the fault is
marked in a next state (log entry 14, DEDUCED). -/
def Obligations.EarlyTransactionMarksHostOverlap : Prop :=
  ∀ (s : State) (t : Transaction) (n : Nat) (rest : List Request), s.faulted = false → s.seq ≠ .idle →
    (s.inbox = ⟨t, some 0⟩ :: rest → step s = .next { s with inbox := rest, faulted := true }) ∧
    (s.inbox = ⟨t, some (n + 1)⟩ :: rest → step s = sequencerStep { s with inbox := ⟨t, some n⟩ :: rest })

/-- R35, R62, R257: a marked block takes no step and accepts no command; no step clears the mark, and only a
presentation to a busy block sets it. That a marked block answers each step with the fault is the model's
reading (log entry 14, DEDUCED), and a request that is due at once is its form of a presentation (log entry 6, DESIGN
CHOICE). -/
def Obligations.FaultMarkIsSetOnlyByOverlap : Prop :=
  (∀ (s : State) (i : Instr), s.faulted = true → step s = .fault .hostOverlap ∧ exec i s = .fault .hostOverlap) ∧
  (∀ s t : State, step s = .next t → s.faulted = false ∧
    (t.faulted = true ↔ s.seq ≠ .idle ∧ ∃ txn rest, s.inbox = ⟨txn, some 0⟩ :: rest))

/-! ### Reset and the invariant (spec/10_state.md R28, R37; spec/70_reset_and_hazards.md R280) -/

/-- R37, R280: every state element at its reset value, for every instance; nothing emitted and no response. -/
def Obligations.ResetPutsEveryElementAtItsValue : Prop :=
  ∀ p : Params,
    (State.resetWith p).params = p ∧
    (State.resetWith p).cfg.protocol = .shiftRegister ∧
    (State.resetWith p).cfg.bitOrder = p.resetBitOrder ∧
    (State.resetWith p).cfg.bitLengthMode = .overall ∧
    (State.resetWith p).cfg.bitLength.toNat = p.width.bits ∧
    (State.resetWith p).cfg.onesComplement = false ∧
    (State.resetWith p).length = 1 ∧
    (State.resetWith p).buf = [0#64] ∧
    (State.resetWith p).bitCounter = 0 ∧
    (State.resetWith p).seq = .idle ∧
    (State.resetWith p).pins = ⟨.low, .low, .low, false⟩ ∧
    (State.resetWith p).cal = ⟨0, 0, 0⟩ ∧
    (State.resetWith p).faulted = false ∧
    (State.resetWith p).trace = [] ∧
    (State.resetWith p).responses = []

/-- The invariant holds at reset, for every legal instance, and so for the machine's own reset state, which is that of
the instance `Config.params` (the model's choice, log entry 2). -/
def Obligations.InvariantHoldsAtReset : Prop :=
  (∀ p : Params, p.legal → Inv (State.resetWith p)) ∧
  Sys2Proof.core.reset = State.resetWith Config.params ∧ Inv (State.resetWith Config.params)

/-- R28, R29, R34, R192, R223, R229: every step keeps the invariant, from every state that has it. -/
def Obligations.EveryStepKeepsTheInvariant : Prop :=
  ∀ s t : State, Inv s → step s = .next t → Inv t

/-- R251, R257: from a state with the invariant the only stop is HostOverlap, of a marked block; no step is refused. -/
def Obligations.OnlyHostOverlapStopsTheBlock : Prop :=
  ∀ s : State, Inv s →
    (s.faulted = false → ∃ t, step s = .next t) ∧
    (∀ f, step s = .fault f → f = .hostOverlap) ∧
    (∀ r, step s ≠ .refused r)

/-- R6, R36: no step changes a parameter of the instance. -/
def Obligations.NoStepChangesTheParameters : Prop :=
  ∀ s t : State, step s = .next t → t.params = s.params

/-- R59, R191, R30: while the host waits, a command in flight ends: after finitely many steps the block is idle,
unmarked, and has given exactly one response, whose status is OK. -/
def Obligations.EveryCommandInFlightEnds : Prop :=
  ∀ s : State, Inv s → s.faulted = false → s.seq ≠ .idle → hostWaits s = true →
    ∃ (n : Nat) (t : State) (v : BitVec 64), stepN n s = .next t ∧ Ready t ∧ t.inbox = s.inbox ∧
      t.responses = s.responses ++ [⟨.ok, v⟩]

/-! ### Whole-machine rules -/

/-- R21 to R26, "Written by": each configuration field and `length` is changed by its own commands and no other. -/
def Obligations.EachConfigurationFieldHasItsWriters : Prop :=
  ∀ (s t : State) (i : Instr), exec i s = .next t →
    (t.cfg.protocol ≠ s.cfg.protocol → ∃ p, i = .setproto p) ∧
    (t.cfg.bitOrder ≠ s.cfg.bitOrder → ∃ o, i = .setorder o) ∧
    (t.cfg.bitLengthMode ≠ s.cfg.bitLengthMode → ∃ m, i = .setmode m) ∧
    (t.cfg.onesComplement ≠ s.cfg.onesComplement → ∃ b, i = .setonesc b) ∧
    (t.cfg.bitLength ≠ s.cfg.bitLength → ∃ n, i = .setbitlen n) ∧
    (t.length ≠ s.length → (∃ n, i = .resize n) ∨ ∃ n ds, i = .overwrite n ds)

/-- R106, R168, R232: while a command is in flight no step changes the configuration or `length`. -/
def Obligations.ConfigurationIsFixedInFlight : Prop :=
  ∀ s t : State, s.seq ≠ .idle → step s = .next t → t.cfg = s.cfg ∧ t.length = s.length

/-- R64: COMMIT never writes the buffer, whatever `onesComplement` is: neither its acceptance nor any step of a
commit does, so every index reads as before. -/
def Obligations.CommitNeverWritesTheBuffer : Prop :=
  (∀ s t : State, exec .commit s = .next t → t.buf = s.buf ∧ ∀ a, memRead t a = memRead s a) ∧
  (∀ (s t : State) (sub : CommitSub) (cur : Cursor) (ret : Ret), s.seq = .commit sub cur ret → step s = .next t →
    t.buf = s.buf ∧ ∀ a, memRead t a = memRead s a)

/-- R60, R189, R262, R31, R32: a step emits at most one event, the pins follow that event and nothing else, and an idle
block emits none. -/
def Obligations.EachStepEmitsAtMostOneEvent : Prop :=
  ∀ s t : State, step s = .next t →
    ((t.trace = s.trace ∧ t.pins = s.pins) ∨
     (s.seq ≠ .idle ∧ ∃ e, t.trace = s.trace ++ [e] ∧ t.pins = s.pins.after e)) ∧
    (s.pins.senseInput = true → t.pins.senseInput = true)

/-- R70, R82, R250, R251: a ready block answers every command with a next state. Every command but COMMIT and AUTOSENSE
ends at once, with exactly one response, of a status the command can report. COMMIT and AUTOSENSE leave the block busy
without a response: they start the state machines of R189 and R230. That is the model's choice of the stepwise form
(log entry 5, DESIGN CHOICE), where R187 also allows a commit in one step. -/
def Obligations.EveryCommandIsAnswered : Prop :=
  ∀ (s : State) (i : Instr), Ready s → ∃ t, exec i s = .next t ∧
    ((i = .commit ∨ i = .autosense) → t.seq ≠ .idle ∧ t.responses = s.responses) ∧
    (i ≠ .commit → i ≠ .autosense → t.seq = .idle ∧
      ∃ r : Response, r.status ∈ canReport i ∧ t.responses = s.responses ++ [r])

/-- R82: the status codes. They are 0 to 4, no two alike, so 5, 6 and 7 are never produced. -/
def Obligations.StatusCodesAreDistinct : Prop :=
  Status.ok.code.toNat = 0 ∧ Status.configError.code.toNat = 1 ∧ Status.allocError.code.toNat = 2 ∧
  Status.indexError.code.toNat = 3 ∧ Status.illegalCommand.code.toNat = 4 ∧
  (∀ st : Status, st.code.toNat ≤ 4) ∧ ∀ st st' : Status, st.code = st'.code → st = st'

/-- R252: a command that reports an error changes nothing but the list of responses, which gains `(status, 0)`. -/
def Obligations.ErrorChangesNoState : Prop :=
  (∀ (s t : State) (i : Instr) (r : Response), exec i s = .next t → t.responses = s.responses ++ [r] →
    r.status ≠ .ok → t = responded s r.status 0#64) ∧
  (∀ s : State, Ready s → illegalCommand s = .next (responded s .illegalCommand 0#64))

/-- R58: every command but COMMIT and AUTOSENSE is idempotent: issued twice in a row it leaves the block as issued
once, and emits no event. -/
def Obligations.CommandsAreIdempotent : Prop :=
  ∀ (s : State) (i : Instr), Ready s → i ≠ .commit → i ≠ .autosense →
    ∃ t u, exec i s = .next t ∧ exec i t = .next u ∧ u.block = t.block ∧ u.trace = s.trace

/-! ### Configuration commands (spec/40_configuration.md) -/

/-- R100, with the exact next state: no other field changes and the latch line is not driven. -/
def Obligations.SetprotoWritesProtocol : Prop :=
  (∀ b : Bool, decode ⟨0x10000000#32 ||| (BitVec.ofBool b).setWidth 32, []⟩ =
    .ok (.setproto (if b then .shiftSpi else .shiftRegister))) ∧
  (∀ (s : State) (p : Protocol), Ready s →
    exec (.setproto p) s = .next (responded { s with cfg := { s.cfg with protocol := p } } .ok 0#64))

/-- R101, with the exact next state. -/
def Obligations.SetorderWritesBitOrder : Prop :=
  (∀ b : Bool, decode ⟨0x20000000#32 ||| (BitVec.ofBool b).setWidth 32, []⟩ =
    .ok (.setorder (if b then .msbFirst else .lsbFirst))) ∧
  (∀ (s : State) (o : BitOrder), Ready s →
    exec (.setorder o) s = .next (responded { s with cfg := { s.cfg with bitOrder := o } } .ok 0#64))

/-- R102, with the exact next state. -/
def Obligations.SetmodeWritesBitLengthMode : Prop :=
  (∀ b : Bool, decode ⟨0x30000000#32 ||| (BitVec.ofBool b).setWidth 32, []⟩ =
    .ok (.setmode (if b then .each else .overall))) ∧
  (∀ (s : State) (m : LenMode), Ready s →
    exec (.setmode m) s = .next (responded { s with cfg := { s.cfg with bitLengthMode := m } } .ok 0#64))

/-- R103, with the exact next state. -/
def Obligations.SetonescWritesOnesComplement : Prop :=
  (∀ b : Bool, decode ⟨0x40000000#32 ||| (BitVec.ofBool b).setWidth 32, []⟩ = .ok (.setonesc b)) ∧
  (∀ (s : State) (b : Bool), Ready s →
    exec (.setonesc b) s = .next (responded { s with cfg := { s.cfg with onesComplement := b } } .ok 0#64))

/-- R104, with the exact next state: the field takes the value itself up to `W`, and a larger value is rejected, never
clamped. -/
def Obligations.SetbitlenWritesOrRejects : Prop :=
  (∀ n : BitVec 24, decode ⟨0x50000000#32 ||| n.setWidth 32, []⟩ = .ok (.setbitlen n)) ∧
  (∀ (s : State) (n : BitVec 24), Ready s → n.toNat ≤ s.params.width.bits →
    ∃ b : BitVec 7, b.toNat = n.toNat ∧
      exec (.setbitlen n) s = .next (responded { s with cfg := { s.cfg with bitLength := b } } .ok 0#64)) ∧
  (∀ (s : State) (n : BitVec 24), Ready s → s.params.width.bits < n.toNat →
    exec (.setbitlen n) s = .next (responded s .configError 0#64))

/-- R105, R83: GETCFG changes no state and returns the configuration word field by field, `length`, or `W`. -/
def Obligations.GetcfgReturnsTheConfiguration : Prop :=
  decode ⟨0xF0000000#32, []⟩ = .ok (.getcfg .word) ∧
  decode ⟨0xF0000001#32, []⟩ = .ok (.getcfg .length) ∧
  decode ⟨0xF0000002#32, []⟩ = .ok (.getcfg .width) ∧
  (∀ s : State, Ready s → ∃ v : BitVec 64,
    exec (.getcfg .word) s = .next (responded s .ok v) ∧
    v.getLsbD 0 = decide (s.cfg.protocol = .shiftSpi) ∧
    v.getLsbD 1 = decide (s.cfg.bitOrder = .msbFirst) ∧
    v.getLsbD 2 = decide (s.cfg.bitLengthMode = .each) ∧
    v.getLsbD 3 = s.cfg.onesComplement ∧
    v.extractLsb' 4 7 = s.cfg.bitLength ∧
    v.extractLsb' 11 53 = 0#53) ∧
  (∀ s : State, Ready s → exec (.getcfg .length) s = .next (responded s .ok (BitVec.ofNat 64 s.length))) ∧
  (∀ s : State, Ready s → exec (.getcfg .width) s = .next (responded s .ok (BitVec.ofNat 64 s.params.width.bits)))

/-! ### Buffer Manager commands (spec/41_buffer_manager.md) -/

/-- R130, with the exact next state in each of its three cases. -/
def Obligations.ResizeDiscardsAndAllocatesZeros : Prop :=
  (∀ n : BitVec 24, decode ⟨0x60000000#32 ||| n.setWidth 32, []⟩ = .ok (.resize n)) ∧
  (∀ s : State, Ready s → exec (.resize 0#24) s = .next (responded s .configError 0#64)) ∧
  (∀ (s : State) (n : BitVec 24), Ready s → n ≠ 0#24 → s.params.maxLen < n.toNat →
    exec (.resize n) s = .next (responded s .allocError 0#64)) ∧
  (∀ (s : State) (n : BitVec 24), Ready s → n ≠ 0#24 → n.toNat ≤ s.params.maxLen →
    exec (.resize n) s =
      .next (responded { s with length := n.toNat, buf := List.replicate n.toNat 0#64 } .ok 0#64))

/-- R131, with the exact next state: every element takes the data word, which is taken unchanged when it has `W` bits
(R74). For a 64-bit word with a bit at or above `W`, which no host can present, the low `W` bits are the model's choice
(log entry 3, DESIGN CHOICE). -/
def Obligations.FillOverwritesEveryElement : Prop :=
  (∀ d : DataWord, decode ⟨0x70000000#32, [d]⟩ = .ok (.fill d)) ∧
  (∀ (s : State) (d : DataWord), Ready s →
    exec (.fill d) s =
      .next (responded { s with buf := List.replicate s.length (dataOperand s.params.width d) } .ok 0#64)) ∧
  (∀ (w : Width) (d : DataWord), d.toNat < 2 ^ w.bits → dataOperand w d = d)

/-- R132, R133, with the exact next states. -/
def Obligations.ClearAndSetallFillTheBuffer : Prop :=
  decode ⟨0x80000000#32, []⟩ = .ok .clear ∧ decode ⟨0x90000000#32, []⟩ = .ok .setall ∧
  (∀ s : State, Ready s →
    exec .clear s = .next (responded { s with buf := List.replicate s.length 0#64 } .ok 0#64)) ∧
  (∀ s : State, Ready s →
    exec .setall s =
      .next (responded { s with buf := List.replicate s.length (BitVec.ofNat 64 (2 ^ s.params.width.bits - 1)) }
        .ok 0#64))

/-- R85: CLEAR is `FILL #0` and SETALL is `FILL #(2^W−1)`, in every state. -/
def Obligations.ClearAndSetallAreFills : Prop :=
  ∀ s : State, exec .clear s = exec (.fill 0#64) s ∧
    exec .setall s = exec (.fill (BitVec.ofNat 64 (2 ^ s.params.width.bits - 1))) s

/-- R134, with the exact next state. A `W`-bit data word is assigned unchanged (R74; the third clause of
`FillOverwritesEveryElement`). For a 64-bit word with a bit at or above `W`, which no host can present, the low `W` bits
are the model's choice (log entry 3, DESIGN CHOICE). -/
def Obligations.WriteAssignsOneElement : Prop :=
  (∀ (idx : BitVec 24) (d : DataWord), decode ⟨0xA0000000#32 ||| idx.setWidth 32, [d]⟩ = .ok (.write idx d)) ∧
  (∀ (s : State) (idx : BitVec 24) (d : DataWord), Ready s → idx.toNat < s.length →
    exec (.write idx d) s =
      .next (responded { s with buf := s.buf.set idx.toNat (dataOperand s.params.width d) } .ok 0#64)) ∧
  (∀ (s : State) (idx : BitVec 24) (d : DataWord), Ready s → s.length ≤ idx.toNat →
    exec (.write idx d) s = .next (responded s .indexError 0#64))

/-- R135, with the exact next state: the element is returned zero-extended, and nothing changes. -/
def Obligations.ReadReturnsTheElement : Prop :=
  (∀ idx : BitVec 24, decode ⟨0xB0000000#32 ||| idx.setWidth 32, []⟩ = .ok (.read idx)) ∧
  (∀ (s : State) (idx : BitVec 24), Ready s → Memory.wf s.params.width s.length s.buf = true →
    idx.toNat < s.length →
    ∃ x : Elem, s.buf[idx.toNat]? = some x ∧ x.toNat < 2 ^ s.params.width.bits ∧
      exec (.read idx) s = .next (responded s .ok x)) ∧
  (∀ (s : State) (idx : BitVec 24), Ready s → s.length ≤ idx.toNat →
    exec (.read idx) s = .next (responded s .indexError 0#64))

/-- R75, R136, with the exact next state in each of the four cases. In the last, `W`-bit data words are taken unchanged
(R74; the third clause of `FillOverwritesEveryElement`). For 64-bit words with a bit at or above `W`, which no host can
present, the low `W` bits are the model's choice (log entry 3, DESIGN CHOICE). -/
def Obligations.OverwriteReplacesLengthAndContents : Prop :=
  (∀ (n : BitVec 24) (ds : List DataWord), ds.length = n.toNat →
    decode ⟨0xC0000000#32 ||| n.setWidth 32, ds⟩ = .ok (.overwrite n ds)) ∧
  (∀ (s : State) (n : BitVec 24) (ds : List DataWord), Ready s → ds.length ≠ n.toNat →
    exec (.overwrite n ds) s = .next (responded s .illegalCommand 0#64)) ∧
  (∀ s : State, Ready s → exec (.overwrite 0#24 []) s = .next (responded s .configError 0#64)) ∧
  (∀ (s : State) (n : BitVec 24) (ds : List DataWord), Ready s → n ≠ 0#24 → ds.length = n.toNat →
    s.params.maxLen < n.toNat → exec (.overwrite n ds) s = .next (responded s .allocError 0#64)) ∧
  (∀ (s : State) (n : BitVec 24) (ds : List DataWord), Ready s → n ≠ 0#24 → ds.length = n.toNat →
    n.toNat ≤ s.params.maxLen →
    exec (.overwrite n ds) s =
      .next (responded { s with length := n.toNat, buf := ds.map (dataOperand s.params.width) } .ok 0#64))

/-- R134, R135, R51, R288: a READ after a WRITE returns at its index what was written, the old element at every other
index of the buffer, and IndexError beyond it. What was written is the data word itself when it has `W` bits (R74; the
third clause of `FillOverwritesEveryElement`). For a 64-bit word with a bit at or above `W`, which no host can present,
it is the low `W` bits, the model's choice (log entry 3, DESIGN CHOICE). -/
def Obligations.ReadAfterWrite : Prop :=
  ∀ (s : State) (idx j : BitVec 24) (d : DataWord), Ready s → Memory.wf s.params.width s.length s.buf = true →
    idx.toNat < s.length →
    ∃ t u, exec (.write idx d) s = .next t ∧ exec (.read j) t = .next u ∧
      (j = idx → u.responses = t.responses ++ [⟨.ok, dataOperand s.params.width d⟩]) ∧
      (j ≠ idx → ∀ x, s.buf[j.toNat]? = some x → u.responses = t.responses ++ [⟨.ok, x⟩]) ∧
      (s.length ≤ j.toNat → u.responses = t.responses ++ [⟨.indexError, 0#64⟩])

/-! ### Frames -/

/-- What no command changes when it is presented, except the pins, the trace and the counters that the state machines of
COMMIT and AUTOSENSE change later. -/
abbrev keepsPorts (s t : State) : Prop :=
  t.params = s.params ∧ t.bitCounter = s.bitCounter ∧ t.pins = s.pins ∧ t.cal = s.cal ∧ t.inbox = s.inbox ∧
  t.senseIn = s.senseIn ∧ t.senseDraws = s.senseDraws ∧ t.trace = s.trace ∧ (s.seq = .idle → t.faulted = s.faulted)

/-- R58, the frame of the commands that store nothing: SETPROTO, SETORDER, SETMODE, SETONESC, SETBITLEN, GETCFG and READ
leave the buffer and everything else unchanged but their own configuration field and the responses, and every index
reads as before. -/
def Obligations.RegisterCommandsFrame : Prop :=
  ∀ (s t : State) (i : Instr), exec i s = .next t →
    ((∃ p, i = .setproto p) ∨ (∃ o, i = .setorder o) ∨ (∃ m, i = .setmode m) ∨ (∃ b, i = .setonesc b) ∨
      (∃ n, i = .setbitlen n) ∨ (∃ sel, i = .getcfg sel) ∨ ∃ idx, i = .read idx) →
    keepsPorts s t ∧ t.seq = s.seq ∧ t.length = s.length ∧ t.buf = s.buf ∧ (∀ a, memRead t a = memRead s a) ∧
    (((∃ sel, i = .getcfg sel) ∨ ∃ idx, i = .read idx) → t.cfg = s.cfg)

/-- R58, the frame of the commands that store: RESIZE, FILL, CLEAR, SETALL, WRITE and OVERWRITE leave everything but the
buffer, `length` and the responses unchanged. WRITE changes the index its operand names and no other. FILL, CLEAR
and SETALL keep `length`. -/
def Obligations.BufferCommandsFrame : Prop :=
  (∀ (s t : State) (i : Instr), exec i s = .next t →
    ((∃ n, i = .resize n) ∨ (∃ d, i = .fill d) ∨ i = .clear ∨ i = .setall ∨ (∃ idx d, i = .write idx d) ∨
      ∃ n ds, i = .overwrite n ds) →
    keepsPorts s t ∧ t.seq = s.seq ∧ t.cfg = s.cfg) ∧
  (∀ (s t : State) (idx : BitVec 24) (d : DataWord), exec (.write idx d) s = .next t →
    t.length = s.length ∧ ∀ a, a ≠ uOperand idx → memRead t a = memRead s a) ∧
  (∀ (s t : State) (i : Instr), exec i s = .next t → ((∃ d, i = .fill d) ∨ i = .clear ∨ i = .setall) →
    t.length = s.length ∧ ∀ a, s.length ≤ a → memRead t a = memRead s a)

/-- Accepting COMMIT or AUTOSENSE changes the sequencer state and nothing else; the effects of R58 are those of the
state machine it starts (R189, R230). That acceptance changes `seq` alone is the model's choice of the stepwise form
(log entry 5, DESIGN CHOICE), and so are the cursors of `Cursor.start` on entry (log entry 10, DESIGN CHOICE). R58 and
R64 give the rest of the frame: no configuration, `length` or buffer element is written. -/
def Obligations.EngineCommandsStartFrame : Prop :=
  ∀ (s t : State) (i : Instr), exec i s = .next t → (i = .commit ∨ i = .autosense) →
    keepsPorts s t ∧ t.cfg = s.cfg ∧ t.length = s.length ∧ t.buf = s.buf ∧ t.responses = s.responses ∧
    (∀ a, memRead t a = memRead s a) ∧
    (Ready s → t.seq = if i = .commit then .commit .latchLo Cursor.start .idle else .calib .input)

/-! ### Bit Policy (spec/42_bit_policy.md) -/

/-- R160: the traversal order, position by position, and its first slot. -/
def Obligations.TraversalFollowsBitOrder : Prop :=
  ∀ (c : Cfg) (len k : Nat),
    (order c len).length = len ∧
    (k < len → c.bitOrder = .lsbFirst → (order c len)[k]? = some k) ∧
    (k < len → c.bitOrder = .msbFirst → (order c len)[k]? = some (len - 1 - k)) ∧
    (1 ≤ len → firstSlot c len = if c.bitOrder = .lsbFirst then 0 else len - 1)

/-- R161: the bit tested at each bit step below `B`, which is one of the low `B` bits. -/
def Obligations.BitIndexFollowsBitOrder : Prop :=
  ∀ (c : Cfg) (i : Nat), i < c.bitLength.toNat →
    (c.bitOrder = .lsbFirst → bitIndex c i = i) ∧
    (c.bitOrder = .msbFirst → bitIndex c i + i + 1 = c.bitLength.toNat) ∧
    bitIndex c i < c.bitLength.toNat

/-- R163: the transmitted value bit by bit: inverted below `W` under ones-complement, the element itself otherwise. -/
def Obligations.TransmittedValueInvertsEachBit : Prop :=
  ∀ (w : Width) (c : Cfg) (x : Elem) (k : Nat),
    (c.onesComplement = true → (tx w c x).getLsbD k = (decide (k < w.bits) && !x.getLsbD k)) ∧
    (c.onesComplement = false → tx w c x = x)

/-- R165 written without the traversal order: under OVERALL the first `B` bits of the first slot only, under EACH `B` bits
of every element, in the bit order. -/
def Obligations.EmittedBitsOfEachModeAndOrder : Prop :=
  ∀ (w : Width) (c : Cfg) (buf : List Elem) (x : Elem),
    (c.bitLengthMode = .overall → c.bitOrder = .lsbFirst →
      bits w c (x :: buf) = (List.range c.bitLength.toNat).map (fun i => (tx w c x).getLsbD i)) ∧
    (c.bitLengthMode = .overall → c.bitOrder = .msbFirst →
      bits w c (buf ++ [x]) = ((List.range c.bitLength.toNat).map (fun i => (tx w c x).getLsbD i)).reverse) ∧
    (c.bitLengthMode = .each → c.bitOrder = .lsbFirst →
      bits w c buf = buf.flatMap (fun y => (List.range c.bitLength.toNat).map (fun i => (tx w c y).getLsbD i))) ∧
    (c.bitLengthMode = .each → c.bitOrder = .msbFirst →
      bits w c buf = (buf.flatMap (fun y => (List.range c.bitLength.toNat).map
        (fun i => (tx w c y).getLsbD i))).reverse)

/-- R166: a commit emits exactly `B` pulses under OVERALL, which is `min(B, L × W)`, and `L × B` under EACH. A pulse is
counted by its `writeLevel(clock, HIGH)`. -/
def Obligations.PulseCounts : Prop :=
  ∀ (w : Width) (c : Cfg) (buf : List Elem), buf ≠ [] → c.bitLength.toNat ≤ w.bits →
    (c.bitLengthMode = .overall →
      (commitTrace w c buf).count (.writeLevel .clock .high) = c.bitLength.toNat ∧
      (commitTrace w c buf).count (.writeLevel .clock .high) = min c.bitLength.toNat (buf.length * w.bits)) ∧
    (c.bitLengthMode = .each →
      (commitTrace w c buf).count (.writeLevel .clock .high) = buf.length * c.bitLength.toNat)

/-- R167: the two bit orders give reversed sequences under EACH, and under OVERALL exactly when the first and the last
element agree in the bits sent. -/
def Obligations.BitOrderSymmetry : Prop :=
  ∀ (w : Width) (c : Cfg) (buf : List Elem), buf ≠ [] → c.bitLength.toNat ≤ w.bits →
    (c.bitLengthMode = .each →
      bits w { c with bitOrder := .lsbFirst } buf = (bits w { c with bitOrder := .msbFirst } buf).reverse) ∧
    (c.bitLengthMode = .overall →
      (bits w { c with bitOrder := .lsbFirst } buf = (bits w { c with bitOrder := .msbFirst } buf).reverse ↔
        ∀ i, i < c.bitLength.toNat →
          (buf.getD 0 0#64).getLsbD i = (buf.getD (buf.length - 1) 0#64).getLsbD i)) ∧
    (c.bitLengthMode = .overall → c.bitLength.toNat = 0 →
      bits w { c with bitOrder := .lsbFirst } buf = [] ∧ bits w { c with bitOrder := .msbFirst } buf = [])

/-! ### COMMIT (spec/43_commit.md) -/

/-- R180, R187, R189, R190: COMMIT completes. The block accepts it, and after at most the number of steps R189 gives, of
its own state machine, it is idle again, has emitted exactly the trace of R187, has responded (OK, 0), and every
other element of the state is as R190 says. -/
def Obligations.CommitCompletesWithItsTrace : Prop :=
  ∀ s : State, Inv s → Ready s → hostWaits s = true →
    ∃ (s₁ : State) (n : Nat), exec .commit s = .next s₁ ∧
      n ≤ (4 + 3 * s.length * s.params.width.bits) + (2 * s.length + 2) ∧
      stepN n s₁ = .next (responded (commitEnd s) .ok 0#64)

/-- R187, R190 are what the pseudocode of R180 does. -/
def Obligations.CommitPseudocodeHasTheClosedForm : Prop :=
  ∀ s : State, Inv s → runCommit s = commitEnd s

/-- R187: the length of a commit's trace. -/
def Obligations.CommitTraceLength : Prop :=
  ∀ (w : Width) (c : Cfg) (buf : List Elem),
    (commitTrace w c buf).length = 3 + 3 * (bits w c buf).length + (if c.protocol = .shiftRegister then 1 else 0)

/-- R193: with a zero budget a commit emits no data bit and no clock pulse, in either mode and order. -/
def Obligations.ZeroBudgetSendsNothing : Prop :=
  ∀ (w : Width) (c : Cfg) (buf : List Elem), c.bitLength = 0#7 →
    bits w c buf = [] ∧
    commitTrace w c buf =
      [.writeLevel .latch .low, .writeLevel .clock .low, .writeLevel .latch .high] ++
        (if c.protocol = .shiftRegister then [.writeLevel .latch .low] else [])

/-! ### AUTOSENSE (spec/44_autosense.md) -/

/-- R220 to R232: AUTOSENSE completes, whatever the samples. The block accepts it, and after finitely many steps of its
state machine it is idle again, has emitted exactly the trace of R231, has responded with the bank count of R228, the
buffer is all zero (R223), and `cfg` and `length` are unchanged (R232). -/
def Obligations.AutosenseCompletesWithItsTrace : Prop :=
  ∀ s : State, Inv s → Ready s → hostWaits s = true →
    ∃ (s₁ : State) (n : Nat), exec .autosense s = .next s₁ ∧ stepN n s₁ = .next (autosenseEnd s)

/-- R231, R228, R223 are what the pseudocode of R220 does. -/
def Obligations.AutosensePseudocodeHasTheClosedForm : Prop :=
  ∀ s : State, Inv s → wholeAutosense s = autosenseEnd s

/-- R228, R229: the result is between 1 and `MAX_BANK_COUNT`; the samples before it differ from the marker level, and the
last one has it unless the maximum was reached. -/
def Obligations.BankCountIsTheFirstMarkerSample : Prop :=
  ∀ s : State, s.params.legal →
    1 ≤ bankCount s ∧ bankCount s ≤ s.params.maxBankCount ∧
    (∀ j, j + 1 < bankCount s → sampleAt s j ≠ markLevel s.cfg) ∧
    (bankCount s < s.params.maxBankCount → sampleAt s (bankCount s - 1) = markLevel s.cfg)

/-- R226, R227, R228: at AS_SAMPLE the level the environment supplies, either one, is recorded in the trace, and it alone,
with the bank counter, decides whether the command responds. -/
def Obligations.SampleIsAFreeInput : Prop :=
  ∀ (s : State) (l : Level) (rest : List Level), s.faulted = false → s.seq = .calib .sample → hostWaits s = true →
    s.senseIn = l :: rest →
    step s = .next
      (if (l = if s.cfg.onesComplement then .low else .high) ∨ s.cal.bank = s.params.maxBankCount then
        { s with
          senseIn := rest, trace := s.trace ++ [.readLevel l], seq := .idle
          responses := s.responses ++ [⟨.ok, BitVec.ofNat 64 s.cal.bank⟩] }
      else { s with senseIn := rest, trace := s.trace ++ [.readLevel l], seq := .calib .loop })

/-- R233: a commit of the marker pattern sends the marker if and only if `bitLength = W`: then it is the last bit of the
first slot under LSB_FIRST and its first bit under MSB_FIRST. -/
def Obligations.MarkerIsSentOnlyAtFullWidth : Prop :=
  ∀ s : State, 1 ≤ s.length → bitBudget s.cfg ≤ s.params.width.bits →
    ((∃ b ∈ bits s.params.width s.cfg (markerBuf s), b ≠ s.cfg.onesComplement) ↔
      bitBudget s.cfg = s.params.width.bits) ∧
    (bitBudget s.cfg = s.params.width.bits →
      (bits s.params.width s.cfg (markerBuf s))[if s.cfg.bitOrder = .lsbFirst then s.params.width.bits - 1 else 0]? =
        some (!s.cfg.onesComplement))
end

