-- ==== Sys2Proof/Laws/State.lean ====
section
/-! SUPPORT. One lemma per field per update: what each shared operation leaves in each field of the state. -/

namespace Sys2Proof.Machine

variable (s : State)

/-! ### setCfg -/

@[simp] theorem setCfg_params (c : Cfg) : (setCfg s c).params = s.params := rfl
@[simp] theorem setCfg_cfg (c : Cfg) : (setCfg s c).cfg = c := rfl
@[simp] theorem setCfg_length (c : Cfg) : (setCfg s c).length = s.length := rfl
@[simp] theorem setCfg_buf (c : Cfg) : (setCfg s c).buf = s.buf := rfl
@[simp] theorem setCfg_bitCounter (c : Cfg) : (setCfg s c).bitCounter = s.bitCounter := rfl
@[simp] theorem setCfg_seq (c : Cfg) : (setCfg s c).seq = s.seq := rfl
@[simp] theorem setCfg_pins (c : Cfg) : (setCfg s c).pins = s.pins := rfl
@[simp] theorem setCfg_cal (c : Cfg) : (setCfg s c).cal = s.cal := rfl
@[simp] theorem setCfg_faulted (c : Cfg) : (setCfg s c).faulted = s.faulted := rfl
@[simp] theorem setCfg_inbox (c : Cfg) : (setCfg s c).inbox = s.inbox := rfl
@[simp] theorem setCfg_senseIn (c : Cfg) : (setCfg s c).senseIn = s.senseIn := rfl
@[simp] theorem setCfg_senseDraws (c : Cfg) : (setCfg s c).senseDraws = s.senseDraws := rfl
@[simp] theorem setCfg_trace (c : Cfg) : (setCfg s c).trace = s.trace := rfl
@[simp] theorem setCfg_responses (c : Cfg) : (setCfg s c).responses = s.responses := rfl

/-! ### setBitCounter -/

@[simp] theorem setBitCounter_params (n : Nat) : (setBitCounter s n).params = s.params := rfl
@[simp] theorem setBitCounter_cfg (n : Nat) : (setBitCounter s n).cfg = s.cfg := rfl
@[simp] theorem setBitCounter_length (n : Nat) : (setBitCounter s n).length = s.length := rfl
@[simp] theorem setBitCounter_buf (n : Nat) : (setBitCounter s n).buf = s.buf := rfl
@[simp] theorem setBitCounter_bitCounter (n : Nat) : (setBitCounter s n).bitCounter = n := rfl
@[simp] theorem setBitCounter_seq (n : Nat) : (setBitCounter s n).seq = s.seq := rfl
@[simp] theorem setBitCounter_pins (n : Nat) : (setBitCounter s n).pins = s.pins := rfl
@[simp] theorem setBitCounter_cal (n : Nat) : (setBitCounter s n).cal = s.cal := rfl
@[simp] theorem setBitCounter_faulted (n : Nat) : (setBitCounter s n).faulted = s.faulted := rfl
@[simp] theorem setBitCounter_inbox (n : Nat) : (setBitCounter s n).inbox = s.inbox := rfl
@[simp] theorem setBitCounter_senseIn (n : Nat) : (setBitCounter s n).senseIn = s.senseIn := rfl
@[simp] theorem setBitCounter_senseDraws (n : Nat) : (setBitCounter s n).senseDraws = s.senseDraws := rfl
@[simp] theorem setBitCounter_trace (n : Nat) : (setBitCounter s n).trace = s.trace := rfl
@[simp] theorem setBitCounter_responses (n : Nat) : (setBitCounter s n).responses = s.responses := rfl

/-! ### setCal -/

@[simp] theorem setCal_params (c : Cal) : (setCal s c).params = s.params := rfl
@[simp] theorem setCal_cfg (c : Cal) : (setCal s c).cfg = s.cfg := rfl
@[simp] theorem setCal_length (c : Cal) : (setCal s c).length = s.length := rfl
@[simp] theorem setCal_buf (c : Cal) : (setCal s c).buf = s.buf := rfl
@[simp] theorem setCal_bitCounter (c : Cal) : (setCal s c).bitCounter = s.bitCounter := rfl
@[simp] theorem setCal_seq (c : Cal) : (setCal s c).seq = s.seq := rfl
@[simp] theorem setCal_pins (c : Cal) : (setCal s c).pins = s.pins := rfl
@[simp] theorem setCal_cal (c : Cal) : (setCal s c).cal = c := rfl
@[simp] theorem setCal_faulted (c : Cal) : (setCal s c).faulted = s.faulted := rfl
@[simp] theorem setCal_inbox (c : Cal) : (setCal s c).inbox = s.inbox := rfl
@[simp] theorem setCal_senseIn (c : Cal) : (setCal s c).senseIn = s.senseIn := rfl
@[simp] theorem setCal_senseDraws (c : Cal) : (setCal s c).senseDraws = s.senseDraws := rfl
@[simp] theorem setCal_trace (c : Cal) : (setCal s c).trace = s.trace := rfl
@[simp] theorem setCal_responses (c : Cal) : (setCal s c).responses = s.responses := rfl

/-! ### setSeq -/

@[simp] theorem setSeq_params (q : SeqState) : (setSeq s q).params = s.params := rfl
@[simp] theorem setSeq_cfg (q : SeqState) : (setSeq s q).cfg = s.cfg := rfl
@[simp] theorem setSeq_length (q : SeqState) : (setSeq s q).length = s.length := rfl
@[simp] theorem setSeq_buf (q : SeqState) : (setSeq s q).buf = s.buf := rfl
@[simp] theorem setSeq_bitCounter (q : SeqState) : (setSeq s q).bitCounter = s.bitCounter := rfl
@[simp] theorem setSeq_seq (q : SeqState) : (setSeq s q).seq = q := rfl
@[simp] theorem setSeq_pins (q : SeqState) : (setSeq s q).pins = s.pins := rfl
@[simp] theorem setSeq_cal (q : SeqState) : (setSeq s q).cal = s.cal := rfl
@[simp] theorem setSeq_faulted (q : SeqState) : (setSeq s q).faulted = s.faulted := rfl
@[simp] theorem setSeq_inbox (q : SeqState) : (setSeq s q).inbox = s.inbox := rfl
@[simp] theorem setSeq_senseIn (q : SeqState) : (setSeq s q).senseIn = s.senseIn := rfl
@[simp] theorem setSeq_senseDraws (q : SeqState) : (setSeq s q).senseDraws = s.senseDraws := rfl
@[simp] theorem setSeq_trace (q : SeqState) : (setSeq s q).trace = s.trace := rfl
@[simp] theorem setSeq_responses (q : SeqState) : (setSeq s q).responses = s.responses := rfl

/-! ### emit -/

@[simp] theorem emit_params (e : Event) : (emit s e).params = s.params := rfl
@[simp] theorem emit_cfg (e : Event) : (emit s e).cfg = s.cfg := rfl
@[simp] theorem emit_length (e : Event) : (emit s e).length = s.length := rfl
@[simp] theorem emit_buf (e : Event) : (emit s e).buf = s.buf := rfl
@[simp] theorem emit_bitCounter (e : Event) : (emit s e).bitCounter = s.bitCounter := rfl
@[simp] theorem emit_seq (e : Event) : (emit s e).seq = s.seq := rfl
@[simp] theorem emit_pins (e : Event) : (emit s e).pins = s.pins.after e := rfl
@[simp] theorem emit_cal (e : Event) : (emit s e).cal = s.cal := rfl
@[simp] theorem emit_faulted (e : Event) : (emit s e).faulted = s.faulted := rfl
@[simp] theorem emit_inbox (e : Event) : (emit s e).inbox = s.inbox := rfl
@[simp] theorem emit_senseIn (e : Event) : (emit s e).senseIn = s.senseIn := rfl
@[simp] theorem emit_senseDraws (e : Event) : (emit s e).senseDraws = s.senseDraws := rfl
@[simp] theorem emit_trace (e : Event) : (emit s e).trace = s.trace ++ [e] := rfl
@[simp] theorem emit_responses (e : Event) : (emit s e).responses = s.responses := rfl

/-! ### respond -/

@[simp] theorem respond_params (st : Status) (v : BitVec 64) : (respond s st v).params = s.params := rfl
@[simp] theorem respond_cfg (st : Status) (v : BitVec 64) : (respond s st v).cfg = s.cfg := rfl
@[simp] theorem respond_length (st : Status) (v : BitVec 64) : (respond s st v).length = s.length := rfl
@[simp] theorem respond_buf (st : Status) (v : BitVec 64) : (respond s st v).buf = s.buf := rfl
@[simp] theorem respond_bitCounter (st : Status) (v : BitVec 64) : (respond s st v).bitCounter = s.bitCounter := rfl
@[simp] theorem respond_seq (st : Status) (v : BitVec 64) : (respond s st v).seq = s.seq := rfl
@[simp] theorem respond_pins (st : Status) (v : BitVec 64) : (respond s st v).pins = s.pins := rfl
@[simp] theorem respond_cal (st : Status) (v : BitVec 64) : (respond s st v).cal = s.cal := rfl
@[simp] theorem respond_faulted (st : Status) (v : BitVec 64) : (respond s st v).faulted = s.faulted := rfl
@[simp] theorem respond_inbox (st : Status) (v : BitVec 64) : (respond s st v).inbox = s.inbox := rfl
@[simp] theorem respond_senseIn (st : Status) (v : BitVec 64) : (respond s st v).senseIn = s.senseIn := rfl
@[simp] theorem respond_senseDraws (st : Status) (v : BitVec 64) : (respond s st v).senseDraws = s.senseDraws := rfl
@[simp] theorem respond_trace (st : Status) (v : BitVec 64) : (respond s st v).trace = s.trace := rfl
@[simp] theorem respond_responses (st : Status) (v : BitVec 64) : (respond s st v).responses = s.responses ++ [⟨st, v⟩] := rfl

/-! ### raise -/

@[simp] theorem raise_params (st : Status) : (raise s st).params = s.params := rfl
@[simp] theorem raise_cfg (st : Status) : (raise s st).cfg = s.cfg := rfl
@[simp] theorem raise_length (st : Status) : (raise s st).length = s.length := rfl
@[simp] theorem raise_buf (st : Status) : (raise s st).buf = s.buf := rfl
@[simp] theorem raise_bitCounter (st : Status) : (raise s st).bitCounter = s.bitCounter := rfl
@[simp] theorem raise_seq (st : Status) : (raise s st).seq = s.seq := rfl
@[simp] theorem raise_pins (st : Status) : (raise s st).pins = s.pins := rfl
@[simp] theorem raise_cal (st : Status) : (raise s st).cal = s.cal := rfl
@[simp] theorem raise_faulted (st : Status) : (raise s st).faulted = s.faulted := rfl
@[simp] theorem raise_inbox (st : Status) : (raise s st).inbox = s.inbox := rfl
@[simp] theorem raise_senseIn (st : Status) : (raise s st).senseIn = s.senseIn := rfl
@[simp] theorem raise_senseDraws (st : Status) : (raise s st).senseDraws = s.senseDraws := rfl
@[simp] theorem raise_trace (st : Status) : (raise s st).trace = s.trace := rfl
@[simp] theorem raise_responses (st : Status) : (raise s st).responses = s.responses ++ [⟨st, 0#64⟩] := rfl

/-! ### hostOverlap -/

@[simp] theorem hostOverlap_params : (hostOverlap s).params = s.params := rfl
@[simp] theorem hostOverlap_cfg : (hostOverlap s).cfg = s.cfg := rfl
@[simp] theorem hostOverlap_length : (hostOverlap s).length = s.length := rfl
@[simp] theorem hostOverlap_buf : (hostOverlap s).buf = s.buf := rfl
@[simp] theorem hostOverlap_bitCounter : (hostOverlap s).bitCounter = s.bitCounter := rfl
@[simp] theorem hostOverlap_seq : (hostOverlap s).seq = s.seq := rfl
@[simp] theorem hostOverlap_pins : (hostOverlap s).pins = s.pins := rfl
@[simp] theorem hostOverlap_cal : (hostOverlap s).cal = s.cal := rfl
@[simp] theorem hostOverlap_faulted : (hostOverlap s).faulted = true := rfl
@[simp] theorem hostOverlap_inbox : (hostOverlap s).inbox = s.inbox := rfl
@[simp] theorem hostOverlap_senseIn : (hostOverlap s).senseIn = s.senseIn := rfl
@[simp] theorem hostOverlap_senseDraws : (hostOverlap s).senseDraws = s.senseDraws := rfl
@[simp] theorem hostOverlap_trace : (hostOverlap s).trace = s.trace := rfl
@[simp] theorem hostOverlap_responses : (hostOverlap s).responses = s.responses := rfl

/-! ### memWrite -/

@[simp] theorem memWrite_params (idx : Nat) (v : Elem) : (memWrite s idx v).params = s.params := rfl
@[simp] theorem memWrite_cfg (idx : Nat) (v : Elem) : (memWrite s idx v).cfg = s.cfg := rfl
@[simp] theorem memWrite_length (idx : Nat) (v : Elem) : (memWrite s idx v).length = s.length := rfl
@[simp] theorem memWrite_buf (idx : Nat) (v : Elem) : (memWrite s idx v).buf = s.buf.set idx v := rfl
@[simp] theorem memWrite_bitCounter (idx : Nat) (v : Elem) : (memWrite s idx v).bitCounter = s.bitCounter := rfl
@[simp] theorem memWrite_seq (idx : Nat) (v : Elem) : (memWrite s idx v).seq = s.seq := rfl
@[simp] theorem memWrite_pins (idx : Nat) (v : Elem) : (memWrite s idx v).pins = s.pins := rfl
@[simp] theorem memWrite_cal (idx : Nat) (v : Elem) : (memWrite s idx v).cal = s.cal := rfl
@[simp] theorem memWrite_faulted (idx : Nat) (v : Elem) : (memWrite s idx v).faulted = s.faulted := rfl
@[simp] theorem memWrite_inbox (idx : Nat) (v : Elem) : (memWrite s idx v).inbox = s.inbox := rfl
@[simp] theorem memWrite_senseIn (idx : Nat) (v : Elem) : (memWrite s idx v).senseIn = s.senseIn := rfl
@[simp] theorem memWrite_senseDraws (idx : Nat) (v : Elem) : (memWrite s idx v).senseDraws = s.senseDraws := rfl
@[simp] theorem memWrite_trace (idx : Nat) (v : Elem) : (memWrite s idx v).trace = s.trace := rfl
@[simp] theorem memWrite_responses (idx : Nat) (v : Elem) : (memWrite s idx v).responses = s.responses := rfl

/-! ### memFill -/

@[simp] theorem memFill_params (v : Elem) : (memFill s v).params = s.params := rfl
@[simp] theorem memFill_cfg (v : Elem) : (memFill s v).cfg = s.cfg := rfl
@[simp] theorem memFill_length (v : Elem) : (memFill s v).length = s.length := rfl
@[simp] theorem memFill_buf (v : Elem) : (memFill s v).buf = List.replicate s.length v := rfl
@[simp] theorem memFill_bitCounter (v : Elem) : (memFill s v).bitCounter = s.bitCounter := rfl
@[simp] theorem memFill_seq (v : Elem) : (memFill s v).seq = s.seq := rfl
@[simp] theorem memFill_pins (v : Elem) : (memFill s v).pins = s.pins := rfl
@[simp] theorem memFill_cal (v : Elem) : (memFill s v).cal = s.cal := rfl
@[simp] theorem memFill_faulted (v : Elem) : (memFill s v).faulted = s.faulted := rfl
@[simp] theorem memFill_inbox (v : Elem) : (memFill s v).inbox = s.inbox := rfl
@[simp] theorem memFill_senseIn (v : Elem) : (memFill s v).senseIn = s.senseIn := rfl
@[simp] theorem memFill_senseDraws (v : Elem) : (memFill s v).senseDraws = s.senseDraws := rfl
@[simp] theorem memFill_trace (v : Elem) : (memFill s v).trace = s.trace := rfl
@[simp] theorem memFill_responses (v : Elem) : (memFill s v).responses = s.responses := rfl

/-! ### memReplace -/

@[simp] theorem memReplace_params (xs : List Elem) : (memReplace s xs).params = s.params := rfl
@[simp] theorem memReplace_cfg (xs : List Elem) : (memReplace s xs).cfg = s.cfg := rfl
@[simp] theorem memReplace_length (xs : List Elem) : (memReplace s xs).length = xs.length := rfl
@[simp] theorem memReplace_buf (xs : List Elem) : (memReplace s xs).buf = xs := rfl
@[simp] theorem memReplace_bitCounter (xs : List Elem) : (memReplace s xs).bitCounter = s.bitCounter := rfl
@[simp] theorem memReplace_seq (xs : List Elem) : (memReplace s xs).seq = s.seq := rfl
@[simp] theorem memReplace_pins (xs : List Elem) : (memReplace s xs).pins = s.pins := rfl
@[simp] theorem memReplace_cal (xs : List Elem) : (memReplace s xs).cal = s.cal := rfl
@[simp] theorem memReplace_faulted (xs : List Elem) : (memReplace s xs).faulted = s.faulted := rfl
@[simp] theorem memReplace_inbox (xs : List Elem) : (memReplace s xs).inbox = s.inbox := rfl
@[simp] theorem memReplace_senseIn (xs : List Elem) : (memReplace s xs).senseIn = s.senseIn := rfl
@[simp] theorem memReplace_senseDraws (xs : List Elem) : (memReplace s xs).senseDraws = s.senseDraws := rfl
@[simp] theorem memReplace_trace (xs : List Elem) : (memReplace s xs).trace = s.trace := rfl
@[simp] theorem memReplace_responses (xs : List Elem) : (memReplace s xs).responses = s.responses := rfl

/-! ### setInbox -/

@[simp] theorem setInbox_params (rest : List Request) : (setInbox s rest).params = s.params := rfl
@[simp] theorem setInbox_cfg (rest : List Request) : (setInbox s rest).cfg = s.cfg := rfl
@[simp] theorem setInbox_length (rest : List Request) : (setInbox s rest).length = s.length := rfl
@[simp] theorem setInbox_buf (rest : List Request) : (setInbox s rest).buf = s.buf := rfl
@[simp] theorem setInbox_bitCounter (rest : List Request) : (setInbox s rest).bitCounter = s.bitCounter := rfl
@[simp] theorem setInbox_seq (rest : List Request) : (setInbox s rest).seq = s.seq := rfl
@[simp] theorem setInbox_pins (rest : List Request) : (setInbox s rest).pins = s.pins := rfl
@[simp] theorem setInbox_cal (rest : List Request) : (setInbox s rest).cal = s.cal := rfl
@[simp] theorem setInbox_faulted (rest : List Request) : (setInbox s rest).faulted = s.faulted := rfl
@[simp] theorem setInbox_inbox (rest : List Request) : (setInbox s rest).inbox = rest := rfl
@[simp] theorem setInbox_senseIn (rest : List Request) : (setInbox s rest).senseIn = s.senseIn := rfl
@[simp] theorem setInbox_senseDraws (rest : List Request) : (setInbox s rest).senseDraws = s.senseDraws := rfl
@[simp] theorem setInbox_trace (rest : List Request) : (setInbox s rest).trace = s.trace := rfl
@[simp] theorem setInbox_responses (rest : List Request) : (setInbox s rest).responses = s.responses := rfl

/-! ### takeSense, sample -/

@[simp] theorem takeSense_params : (takeSense s).params = s.params := by unfold takeSense; split <;> rfl
@[simp] theorem takeSense_cfg : (takeSense s).cfg = s.cfg := by unfold takeSense; split <;> rfl
@[simp] theorem takeSense_length : (takeSense s).length = s.length := by unfold takeSense; split <;> rfl
@[simp] theorem takeSense_buf : (takeSense s).buf = s.buf := by unfold takeSense; split <;> rfl
@[simp] theorem takeSense_bitCounter : (takeSense s).bitCounter = s.bitCounter := by unfold takeSense; split <;> rfl
@[simp] theorem takeSense_seq : (takeSense s).seq = s.seq := by unfold takeSense; split <;> rfl
@[simp] theorem takeSense_pins : (takeSense s).pins = s.pins := by unfold takeSense; split <;> rfl
@[simp] theorem takeSense_cal : (takeSense s).cal = s.cal := by unfold takeSense; split <;> rfl
@[simp] theorem takeSense_faulted : (takeSense s).faulted = s.faulted := by unfold takeSense; split <;> rfl
@[simp] theorem takeSense_inbox : (takeSense s).inbox = s.inbox := by unfold takeSense; split <;> rfl
@[simp] theorem takeSense_trace : (takeSense s).trace = s.trace := by unfold takeSense; split <;> rfl
@[simp] theorem takeSense_responses : (takeSense s).responses = s.responses := by unfold takeSense; split <;> rfl

theorem takeSense_senseIn : (takeSense s).senseIn = s.senseIn.tail := by
  unfold takeSense; split <;> simp [*]

theorem takeSense_senseDraws :
    (takeSense s).senseDraws = s.senseDraws + (if s.senseIn = [] then 1 else 0) := by
  unfold takeSense; split <;> simp [*]

@[simp] theorem sample_params : (sample s).params = s.params := by simp [sample]
@[simp] theorem sample_cfg : (sample s).cfg = s.cfg := by simp [sample]
@[simp] theorem sample_length : (sample s).length = s.length := by simp [sample]
@[simp] theorem sample_buf : (sample s).buf = s.buf := by simp [sample]
@[simp] theorem sample_bitCounter : (sample s).bitCounter = s.bitCounter := by simp [sample]
@[simp] theorem sample_seq : (sample s).seq = s.seq := by simp [sample]
@[simp] theorem sample_pins : (sample s).pins = s.pins := by simp [sample, Pins.after]
@[simp] theorem sample_cal : (sample s).cal = s.cal := by simp [sample]
@[simp] theorem sample_faulted : (sample s).faulted = s.faulted := by simp [sample]
@[simp] theorem sample_inbox : (sample s).inbox = s.inbox := by simp [sample]
@[simp] theorem sample_responses : (sample s).responses = s.responses := by simp [sample]

@[simp] theorem sample_trace : (sample s).trace = s.trace ++ [.readLevel (senseLevel s)] := by simp [sample]

theorem sample_senseIn : (sample s).senseIn = s.senseIn.tail := by simp [sample, takeSense_senseIn]

theorem sample_senseDraws :
    (sample s).senseDraws = s.senseDraws + (if s.senseIn = [] then 1 else 0) := by
  simp [sample, takeSense_senseDraws]

/-! ### Pins -/

@[simp] theorem after_writeLevel_data (p : Pins) (l : Level) :
    p.after (.writeLevel .data l) = { p with data := l } := rfl

@[simp] theorem after_writeLevel_clock (p : Pins) (l : Level) :
    p.after (.writeLevel .clock l) = { p with clock := l } := rfl

@[simp] theorem after_writeLevel_latch (p : Pins) (l : Level) :
    p.after (.writeLevel .latch l) = { p with latch := l } := rfl

@[simp] theorem after_setInputMode (p : Pins) : p.after .setInputMode = { p with senseInput := true } := rfl

@[simp] theorem after_readLevel (p : Pins) (l : Level) : p.after (.readLevel l) = p := rfl

@[simp] theorem after_delay (p : Pins) (ms : Nat) : p.after (.delay ms) = p := rfl

end Sys2Proof.Machine
end

