-- ==== Sys2Proof/Laws/Ops.lean ====
section
/-! SUPPORT. What each shared operation can do, said once: accepting a command, presenting a transaction, one step,
reading and writing the buffer, and that every buffer operation keeps the buffer's form. -/

namespace Sys2Proof.Machine

/-! ### Accepting a command (spec/20_memory.md R62) -/

/-- The fault is HostOverlap and nothing else, from a marked block and from no other. -/
theorem accept_eq_fault {s : State} {run : State → State} {f : Fault} :
    accept s run = .fault f ↔ s.faulted = true ∧ f = .hostOverlap := by
  unfold accept; split
  · simp_all only [Host.Outcome.fault.injEq, true_and]; exact eq_comm
  all_goals simp_all

/-- No command is refused. -/
theorem accept_ne_refused {s : State} {run : State → State} {r : Refusal} : accept s run ≠ .refused r := by
  unfold accept; split <;> simp

/-- Everything `accept` can answer as a next state. -/
theorem accept_eq_next {s : State} {run : State → State} {t : State} :
    accept s run = .next t ↔
      (Ready s ∧ t = run s) ∨ (s.faulted = false ∧ s.seq ≠ .idle ∧ t = hostOverlap s) := by
  unfold accept; split
  · simp_all [Ready]
  all_goals
    simp_all only [Ready, Host.Outcome.next.injEq, ne_eq, reduceCtorEq, not_true_eq_false, not_false_eq_true,
      true_and, and_true, false_and, or_false, false_or]
    exact eq_comm

/-- An idle, unmarked block runs the command. -/
theorem accept_of_ready {s : State} {run : State → State} (h : Ready s) : accept s run = .next (run s) :=
  accept_eq_next.2 (.inl ⟨h, rfl⟩)

/-- A busy block marks the fault and does nothing else. -/
theorem accept_of_busy {s : State} {run : State → State} (hf : s.faulted = false) (hq : s.seq ≠ .idle) :
    accept s run = .next (hostOverlap s) :=
  accept_eq_next.2 (.inr ⟨hf, hq, rfl⟩)

/-- A marked block stops. -/
theorem accept_of_faulted {s : State} {run : State → State} (hf : s.faulted = true) :
    accept s run = .fault .hostOverlap :=
  accept_eq_fault.2 ⟨hf, rfl⟩

/-- Every command is an acceptance: what `exec` does in an idle block it does through one state function. -/
theorem exec_eq_accept (i : Instr) : ∃ run : State → State, ∀ s, exec i s = accept s run := by
  cases i <;> exact ⟨_, fun _ => rfl⟩

/-! ### Presenting a transaction, and one step -/

theorem present_of_decode {t : Transaction} {i : Instr} (h : decode t = .ok i) (s : State) :
    present t s = exec i s := by
  simp [present, h]

theorem present_of_illegal {t : Transaction} {r : Illegal} (h : decode t = .error r) (s : State) :
    present t s = illegalCommand s := by
  simp [present, h]

/-- A marked block takes no step (spec/10_state.md R35). -/
theorem step_of_faulted {s : State} (h : s.faulted = true) : step s = .fault .hostOverlap := by
  simp [step, blockStep, h]

/-- An idle block presents the first request of the inbox. -/
theorem step_of_ready {s : State} {r : Request} {rest : List Request} (h : Ready s) (hi : s.inbox = r :: rest) :
    step s = present r.txn (setInbox s rest) := by
  simp [step, blockStep, runningStep, h.1, h.2, hi]

/-- A block whose host waits takes the sequencer's step, if it is busy. -/
theorem step_of_waiting {s : State} (hf : s.faulted = false) (hq : s.seq ≠ .idle) (hw : hostWaits s = true) :
    step s = sequencerStep s := by
  cases hi : s.inbox with
  | nil => simp [step, blockStep, runningStep, hf, hi]
  | cons r rest =>
    have he : r.early = none := by simpa [hostWaits, hi] using hw
    cases hs : s.seq <;> simp_all [step, blockStep, runningStep, busyStep]

/-! ### The buffer -/

/-- `Memory.wf` as a proposition (spec/10_state.md R28). -/
theorem wf_iff {w : Width} {len : Nat} {buf : List Elem} :
    Memory.wf w len buf = true ↔ buf.length = len ∧ ∀ x ∈ buf, x.toNat < 2 ^ w.bits := by
  simp [Memory.wf]

theorem memRead_eq_some {s : State} {idx : Nat} {x : Elem} :
    memRead s idx = some x ↔ idx < s.length ∧ s.buf[idx]? = some x := by
  simp [memRead]

/-- Every valid index of a well-formed buffer reads. -/
theorem memRead_of_lt {s : State} {w : Width} (h : Memory.wf w s.length s.buf = true) {idx : Nat}
    (hi : idx < s.length) : ∃ x, memRead s idx = some x ∧ s.buf[idx]? = some x := by
  have hl : idx < s.buf.length := (wf_iff.1 h).1 ▸ hi
  exact ⟨s.buf[idx], memRead_eq_some.2 ⟨hi, by simp [hl]⟩, by simp [hl]⟩

theorem memRead_memWrite_same {s : State} {idx : Nat} {v : Elem} (hi : idx < s.length) (hb : idx < s.buf.length) :
    memRead (memWrite s idx v) idx = some v := by
  simp [memRead, hi, hb]

theorem memRead_memWrite_other {s : State} {idx j : Nat} {v : Elem} (h : j ≠ idx) :
    memRead (memWrite s idx v) j = memRead s j := by
  simp [memRead, h.symm]

theorem memRead_memFill {s : State} {v : Elem} {j : Nat} :
    memRead (memFill s v) j = if j < s.length then some v else none := by
  unfold memRead; split <;> simp_all

theorem memRead_memReplace {s : State} {xs : List Elem} {j : Nat} : memRead (memReplace s xs) j = xs[j]? := by
  unfold memRead; split <;> simp_all

/-! ### Elements fit their width -/

theorem width_bits_pos (w : Width) : 0 < w.bits := by cases w <;> decide

theorem width_bits_le (w : Width) : w.bits ≤ 64 := by cases w <;> decide

/-- Every value of `W` bits is a well-formed element. -/
theorem elemOf_lt (w : Width) (x : BitVec w.bits) : (elemOf w x).toNat < 2 ^ w.bits :=
  lt_of_le_of_lt (by simpa [elemOf] using Nat.mod_le _ _) x.isLt

theorem zero_lt_width (w : Width) : (0#64 : Elem).toNat < 2 ^ w.bits := by simp

/-- A `W`-bit data word reaches the block unchanged (spec/30_encoding.md R74). -/
theorem dataOperand_of_lt {w : Width} {d : DataWord} (h : d.toNat < 2 ^ w.bits) : dataOperand w d = d := by
  apply BitVec.eq_of_toNat_eq
  simp [dataOperand, elemOf, Nat.mod_eq_of_lt h, Nat.mod_eq_of_lt d.isLt]

/-! ### Every buffer operation keeps the buffer's form -/

theorem memWrite_wf {s : State} {w : Width} (h : Memory.wf w s.length s.buf = true) {idx : Nat} {v : Elem}
    (hv : v.toNat < 2 ^ w.bits) :
    Memory.wf w (memWrite s idx v).length (memWrite s idx v).buf = true := by
  obtain ⟨hl, hx⟩ := wf_iff.1 h
  refine wf_iff.2 ⟨by simp [hl], fun x hm => ?_⟩
  rcases List.mem_or_eq_of_mem_set hm with hm | rfl
  · exact hx x hm
  · exact hv

theorem memFill_wf {s : State} {w : Width} {v : Elem} (hv : v.toNat < 2 ^ w.bits) :
    Memory.wf w (memFill s v).length (memFill s v).buf = true :=
  wf_iff.2 ⟨by simp, fun x hm => by rw [List.eq_of_mem_replicate hm]; exact hv⟩

theorem memReplace_wf {s : State} {w : Width} {xs : List Elem} (hx : ∀ x ∈ xs, x.toNat < 2 ^ w.bits) :
    Memory.wf w (memReplace s xs).length (memReplace s xs).buf = true :=
  wf_iff.2 ⟨rfl, hx⟩

/-- The buffer at reset has its form, for every instance. -/
theorem resetWith_wf (p : Params) :
    Memory.wf p.width (State.resetWith p).length (State.resetWith p).buf = true :=
  wf_iff.2 ⟨rfl, by simp [State.resetWith]⟩

/-! ### The traversal names only indices of the buffer (spec/42_bit_policy.md R160) -/

@[simp] theorem order_length (c : Cfg) (len : Nat) : (order c len).length = len := by
  unfold order; split <;> simp

theorem mem_order {c : Cfg} {len e : Nat} : e ∈ order c len ↔ e < len := by
  unfold order; split <;> simp

end Sys2Proof.Machine
end

