-- ==== Sys2Proof/Laws/PerInstr.lean ====
section
/-! SUPPORT. Per command: the fixed fields of the word its encoder writes (spec/30_encoding.md R71, R73, R77), and
the number of data words it carries (R70, R73). -/

namespace Sys2Proof

/-- The opcode-table row of a command (R73). -/
def Instr.opcode : Instr → Opcode
  | .setproto _ => .setproto
  | .setorder _ => .setorder
  | .setmode _ => .setmode
  | .setonesc _ => .setonesc
  | .setbitlen _ => .setbitlen
  | .resize _ => .resize
  | .fill _ => .fill
  | .clear => .clear
  | .setall => .setall
  | .write _ _ => .write
  | .read _ => .read
  | .overwrite _ _ => .overwrite
  | .commit => .commit
  | .autosense => .autosense
  | .getcfg _ => .getcfg

/-- The OP field of a row (R73). -/
def Opcode.field : Opcode → BitVec 4
  | .setproto => 0x1#4
  | .setorder => 0x2#4
  | .setmode => 0x3#4
  | .setonesc => 0x4#4
  | .setbitlen => 0x5#4
  | .resize => 0x6#4
  | .fill => 0x7#4
  | .clear => 0x8#4
  | .setall => 0x9#4
  | .write => 0xA#4
  | .read => 0xB#4
  | .overwrite => 0xC#4
  | .commit => 0xD#4
  | .autosense => 0xE#4
  | .getcfg => 0xF#4

/-- The bits of a command word (R71). -/
theorem getLsbD_commandWord (op : BitVec 4) (arg : BitVec 24) (k : Nat) :
    (commandWord op arg).getLsbD k =
      if k < 24 then arg.getLsbD k else if k < 28 then false else op.getLsbD (k - 28) := by
  change (op ++ 0#4 ++ arg : BitVec (4 + 4 + 24)).getLsbD k = _
  rw [BitVec.getLsbD_append, BitVec.getLsbD_append]
  by_cases h₁ : k < 24
  · simp [h₁]
  · by_cases h₂ : k < 28
    · simp [h₁, h₂, show k - 24 < 4 by omega]
    · simp [h₁, h₂, show ¬(k - 24 < 4) by omega, show k - 24 - 4 = k - 28 by omega]

theorem opField_commandWord (op : BitVec 4) (arg : BitVec 24) : opField (commandWord op arg) = op := by
  apply BitVec.eq_of_getLsbD_eq
  intro k hk
  simp [opField, getLsbD_commandWord, hk, show ¬(28 + k < 24) by omega]

theorem rsvField_commandWord (op : BitVec 4) (arg : BitVec 24) : rsvField (commandWord op arg) = 0#4 := by
  apply BitVec.eq_of_getLsbD_eq
  intro k hk
  simp [rsvField, getLsbD_commandWord, show 24 + k < 28 by omega]

theorem argField_commandWord (op : BitVec 4) (arg : BitVec 24) : argField (commandWord op arg) = arg := by
  apply BitVec.eq_of_getLsbD_eq
  intro k hk
  simp [argField, getLsbD_commandWord, hk]

end Sys2Proof

namespace Sys2Proof.Laws.EncodedFields

/-- The encoder writes the row's OP, a zero RSV field, and, for a well-formed command, as many data words as the row
takes. -/
def Statement (i : Instr) : Prop :=
  opField (encode i).cw = i.opcode.field ∧ rsvField (encode i).cw = 0#4 ∧
  (i.wellFormed = true → (encode i).data.length = i.opcode.dataCount (argField (encode i).cw))

theorem of_fields {i : Instr} {op : BitVec 4} {arg : BitVec 24} (hc : (encode i).cw = commandWord op arg)
    (ho : op = i.opcode.field) (hd : i.wellFormed = true → (encode i).data.length = i.opcode.dataCount arg) :
    Statement i := by
  refine ⟨?_, ?_, fun hw => ?_⟩
  · rw [hc, opField_commandWord, ho]
  · rw [hc, rsvField_commandWord]
  · rw [hc, argField_commandWord]; exact hd hw

theorem setproto (p : Protocol) : Statement (.setproto p) := of_fields rfl rfl fun _ => rfl
theorem setorder (o : BitOrder) : Statement (.setorder o) := of_fields rfl rfl fun _ => rfl
theorem setmode (m : LenMode) : Statement (.setmode m) := of_fields rfl rfl fun _ => rfl
theorem setonesc (b : Bool) : Statement (.setonesc b) := of_fields rfl rfl fun _ => rfl
theorem setbitlen (n : BitVec 24) : Statement (.setbitlen n) := of_fields rfl rfl fun _ => rfl
theorem resize (n : BitVec 24) : Statement (.resize n) := of_fields rfl rfl fun _ => rfl
theorem fill (d : DataWord) : Statement (.fill d) := of_fields rfl rfl fun _ => rfl
theorem clear : Statement .clear := of_fields rfl rfl fun _ => rfl
theorem setall : Statement .setall := of_fields rfl rfl fun _ => rfl
theorem write (idx : BitVec 24) (d : DataWord) : Statement (.write idx d) := of_fields rfl rfl fun _ => rfl
theorem read (idx : BitVec 24) : Statement (.read idx) := of_fields rfl rfl fun _ => rfl
theorem overwrite (n : BitVec 24) (ds : List DataWord) : Statement (.overwrite n ds) :=
  of_fields rfl rfl fun h => by
    simpa [Instr.wellFormed, encode, Instr.opcode, Opcode.dataCount] using h
theorem commit : Statement .commit := of_fields rfl rfl fun _ => rfl
theorem autosense : Statement .autosense := of_fields rfl rfl fun _ => rfl
theorem getcfg (sel : CfgSel) : Statement (.getcfg sel) := of_fields rfl rfl fun _ => rfl

end Sys2Proof.Laws.EncodedFields
end

