-- ==== Sys2Proof/Laws/Step.lean ====
section
/-! SUPPORT. What one step can do, said once: the sequencer's step, the presentation of a transaction, and the three
cases of a step that answers a next state. -/

namespace Sys2Proof.Machine

/-- Presenting a transaction is an acceptance: what it does in an idle block it does through one state function. -/
theorem present_eq_accept (t : Transaction) : ∃ run : State → State, ∀ s, present t s = accept s run := by
  unfold present
  split
  · exact exec_eq_accept _
  · exact ⟨_, fun _ => rfl⟩

/-- Everything a step that answers a next state can be: the sequencer's step, the command of a ready block, or the
overlap of a busy one. -/
theorem step_eq_next {s t : State} (h : step s = .next t) :
    s.faulted = false ∧
    ((∃ rest, sequencerStep (setInbox s rest) = .next t) ∨
     (s.seq = .idle ∧ ∃ r rest, s.inbox = r :: rest ∧ present r.txn (setInbox s rest) = .next t) ∨
     (s.seq ≠ .idle ∧ ∃ txn rest, s.inbox = ⟨txn, some 0⟩ :: rest ∧ t = hostOverlap (setInbox s rest))) := by
  unfold step blockStep at h
  split at h
  · cases h
  rename_i hf
  refine ⟨hf, ?_⟩
  have busy : ∀ r rest, s.inbox = r :: rest → s.seq ≠ .idle → busyStep r rest s = .next t →
      (∃ rest, sequencerStep (setInbox s rest) = .next t) ∨
      (s.seq ≠ .idle ∧ ∃ txn rest, s.inbox = ⟨txn, some 0⟩ :: rest ∧ t = hostOverlap (setInbox s rest)) := by
    intro r rest hi hq hb
    unfold busyStep at hb
    split at hb
    · exact .inl ⟨s.inbox, hb⟩
    · rename_i he
      obtain ⟨run, hr⟩ := present_eq_accept r.txn
      rw [hr, accept_of_busy (by simpa using hf) (by simpa using hq)] at hb
      exact .inr ⟨hq, r.txn, rest, by rw [hi, ← he], by cases hb; rfl⟩
    · exact .inl ⟨_, hb⟩
  unfold runningStep at h
  split at h
  · exact .inl ⟨s.inbox, h⟩
  · rename_i r rest hi hq
    exact .inr (.inl ⟨hq, r, rest, hi, h⟩)
  · rename_i r rest _ _ _ hi hq
    rcases busy r rest hi (by simp [hq]) h with h | h
    · exact .inl h
    · exact .inr (.inr h)
  · rename_i r rest _ hi hq
    rcases busy r rest hi (by simp [hq]) h with h | h
    · exact .inl h
    · exact .inr (.inr h)

/-- What the sequencer's step never changes. -/
theorem sequencerStep_frame {s t : State} (h : sequencerStep s = .next t) :
    t.params = s.params ∧ t.faulted = s.faulted ∧ t.inbox = s.inbox ∧ t.cfg = s.cfg ∧ t.length = s.length := by
  unfold sequencerStep at h
  split at h
  · cases h; simp
  · rename_i sub cur ret hs
    cases sub <;> simp only [commitStep, Host.Outcome.next.injEq, cmNext] at h
    case next =>
      split_ifs at h
      · cases h; simp
      · split at h
        · cases h
        · split at h <;> cases h
          simp [cmStartElement]
    all_goals subst h
    all_goals try simp [cmLatchLo, cmClockLo, cmClkHi, cmLatchHi, cmLatchIdle]
    · unfold cmData; split <;> simp
    · unfold cmClkLo; split_ifs <;> simp
    · cases ret <;> simp [cmDone]
  · rename_i sub hs
    cases sub <;> simp only [calibStep, Host.Outcome.next.injEq, asMark] at h
    case mark => split at h <;> cases h; simp
    all_goals subst h
    all_goals try simp [asInput, asZero, asFlush, asFlushDelay, asLoop, asClear, asSettle, asSample, startCommit]
    · split <;> simp
    · split <;> simp

end Sys2Proof.Machine
end

