-- ==== Sys2Proof/Tests/Slice0.lean ====
section
/-! SUPPORT. The model's own tests. Expected values are those of spec/95_test_vectors.md, named in each comment, or
written out from the rule cited. After them, one witness for the hypotheses of each statement. -/

namespace Sys2Proof.Tests

open Sys2Proof Sys2Proof.Machine

/-! ### Helpers -/

/-- The instance of spec/95_test_vectors.md 2.3: `W = 8`, `MAX_LEN = 4`. -/
def params8 : Params := ⟨.w8, 4, 4, 4, 1, 2, .lsbFirst⟩

/-- A ready block of that instance with the buffer `xs`. -/
def blk (xs : List Elem) : State := { State.resetWith params8 with length := xs.length, buf := xs }

/-- The same with another configuration: protocol, order, mode, bit length, ones-complement. -/
def blkCfg (c : Cfg) (xs : List Elem) : State := { blk xs with cfg := c }

/-- Whether an outcome is a next state with the property `p`. -/
def nextWith (o : Result) (p : State → Bool) : Bool :=
  match o with
  | .next t => p t
  | .fault _ => false
  | .refused _ => false

/-- The last response of a next state. -/
def answers (o : Result) (r : Response) : Bool := nextWith o (fun t => decide (t.responses.getLast? = some r))

/-- Whether a transaction is rejected for the reason `r`. -/
def rejects (t : Transaction) (r : Illegal) : Bool :=
  match decode t with
  | .ok _ => false
  | .error q => decide (q = r)

/-- Whether a transaction decodes to `i`. -/
def decodesTo (t : Transaction) (i : Instr) : Bool :=
  match decode t with
  | .ok j => decide (j = i)
  | .error _ => false

/-! ### WellFormed: an ill-formed term for each check -/

theorem test_wellFormed_refuses_burst_count : (Instr.overwrite 2#24 [1#64]).wellFormed = false := by decide
theorem test_wellFormed_takes_burst_count : (Instr.overwrite 2#24 [1#64, 2#64]).wellFormed = true := by decide
theorem test_fitsWidth_refuses_wide_word : (Instr.fill 0x100#64).fitsWidth .w8 = false := by decide
theorem test_fitsWidth_takes_byte : (Instr.write 0#24 0xFF#64).fitsWidth .w8 = true := by decide

/-! ### Decoding: words written out from R71 to R76 -/

theorem test_decode_setproto : decodesTo ⟨0x10000001#32, []⟩ (.setproto .shiftSpi) = true := by decide
theorem test_decode_setorder : decodesTo ⟨0x20000001#32, []⟩ (.setorder .msbFirst) = true := by decide
theorem test_decode_setmode : decodesTo ⟨0x30000001#32, []⟩ (.setmode .each) = true := by decide
theorem test_decode_setonesc : decodesTo ⟨0x40000001#32, []⟩ (.setonesc true) = true := by decide
theorem test_decode_setbitlen : decodesTo ⟨0x50100009#32, []⟩ (.setbitlen 0x100009#24) = true := by decide
theorem test_decode_resize : decodesTo ⟨0x60000003#32, []⟩ (.resize 3#24) = true := by decide
theorem test_decode_fill : decodesTo ⟨0x70000000#32, [0x5A#64]⟩ (.fill 0x5A#64) = true := by decide
theorem test_decode_clear : decodesTo ⟨0x80000000#32, []⟩ .clear = true := by decide
theorem test_decode_setall : decodesTo ⟨0x90000000#32, []⟩ .setall = true := by decide
theorem test_decode_write : decodesTo ⟨0xA0000001#32, [0x80#64]⟩ (.write 1#24 0x80#64) = true := by decide
theorem test_decode_read : decodesTo ⟨0xB0FFFFFF#32, []⟩ (.read 0xFFFFFF#24) = true := by decide
theorem test_decode_overwrite :
    decodesTo ⟨0xC0000003#32, [0x0F#64, 0x33#64, 0xA5#64]⟩ (.overwrite 3#24 [0x0F#64, 0x33#64, 0xA5#64]) = true := by
  decide
theorem test_decode_commit : decodesTo ⟨0xD0000000#32, []⟩ .commit = true := by decide
theorem test_decode_autosense : decodesTo ⟨0xE0000000#32, []⟩ .autosense = true := by decide
theorem test_decode_getcfg : decodesTo ⟨0xF0000002#32, []⟩ (.getcfg .width) = true := by decide

/-- E1. -/
theorem test_reject_opcode_zero : rejects ⟨0x00000000#32, []⟩ .opcodeZero = true := by decide
/-- E2. -/
theorem test_reject_reserved : rejects ⟨0xD1000000#32, []⟩ .reservedField = true := by decide
/-- E3. -/
theorem test_reject_arg_n : rejects ⟨0xD0000001#32, []⟩ .argBits = true := by decide
/-- E4. -/
theorem test_reject_arg_b : rejects ⟨0x10000002#32, []⟩ .argBits = true := by decide
/-- E5. -/
theorem test_reject_selector : rejects ⟨0xF0000003#32, []⟩ .selectorThree = true := by decide
/-- E10. -/
theorem test_reject_write_without_data : rejects ⟨0xA0000001#32, []⟩ .dataCount = true := by decide
/-- E11. -/
theorem test_reject_burst : rejects ⟨0xC0000002#32, [0x01#64]⟩ .dataCount = true := by decide
/-- E13: the burst is checked before `n = 0`. -/
theorem test_reject_burst_of_zero : rejects ⟨0xC0000000#32, [0x01#64]⟩ .dataCount = true := by decide

theorem test_encode_overwrite :
    encode (.overwrite 3#24 [0x0F#64, 0x33#64, 0xA5#64]) = ⟨0xC0000003#32, [0x0F#64, 0x33#64, 0xA5#64]⟩ := by decide
theorem test_encode_setbitlen : encode (.setbitlen 9#24) = ⟨0x50000009#32, []⟩ := by decide

/-! ### Reset and the step -/

/-- R82. -/
theorem test_status_code : Status.illegalCommand.code = 4#3 ∧ Status.indexError.code = 3#3 := by decide

/-- RS1, GETCFG 0: CF1. -/
theorem test_reset_config_word : answers (exec (.getcfg .word) State.reset) ⟨.ok, 0x80#64⟩ = true := by decide
/-- E1 through a step: an illegal word responds and changes nothing else. -/
theorem test_step_illegal :
    nextWith (step (State.reset.withFetchWord 32 0)) (fun t => decide (t = raise State.reset .illegalCommand)) = true := by
  decide
/-- E6 through a step. -/
theorem test_step_getcfg_width : answers (step (State.reset.withFetchWord 32 0xF0000002)) ⟨.ok, 8#64⟩ = true := by
  decide
/-- CF10, ER5: a command while `seq = CM_DATA` marks the fault. -/
theorem test_overlap :
    nextWith (exec (.setmode .each) { blk [0x03#64] with seq := .commit .data ⟨0, 0, 3#64, 0⟩ .idle })
      (fun t => t.faulted && decide (t.cfg.bitLengthMode = .overall)) = true := by decide

/-! ### Configuration -/

/-- R100: the latch line is not driven by SETPROTO. -/
theorem test_setproto_keeps_latch :
    nextWith (exec (.setproto .shiftRegister)
        { blkCfg ⟨.shiftSpi, .lsbFirst, .overall, 8#7, false⟩ [0#64] with pins := ⟨.low, .low, .high, false⟩ })
      (fun t => decide (t.cfg.protocol = .shiftRegister ∧ t.pins.latch = .high)) = true := by decide
theorem test_setorder :
    nextWith (exec (.setorder .msbFirst) (blk [0#64])) (fun t => decide (t.cfg.bitOrder = .msbFirst)) = true := by decide
/-- E17. -/
theorem test_setmode : answers (exec (.setmode .each) (blk [0#64])) ⟨.ok, 0#64⟩ = true := by decide
theorem test_setonesc :
    nextWith (exec (.setonesc true) (blk [0x5A#64])) (fun t => t.cfg.onesComplement && decide (t.buf = [0x5A#64])) = true := by
  decide
/-- CF5: `n = W` is legal. -/
theorem test_setbitlen_width :
    nextWith (exec (.setbitlen 8#24) (blkCfg ⟨.shiftRegister, .lsbFirst, .overall, 3#7, false⟩ [0#64]))
      (fun t => decide (t.cfg.bitLength = 8#7)) = true := by decide
/-- CF6. -/
theorem test_setbitlen_above_width : answers (exec (.setbitlen 9#24) (blk [0#64])) ⟨.configError, 0#64⟩ = true := by
  decide
/-- CF8. -/
theorem test_getcfg_word :
    answers (exec (.getcfg .word) (blkCfg ⟨.shiftSpi, .msbFirst, .each, 3#7, true⟩ [0#64])) ⟨.ok, 0x3F#64⟩ = true := by
  decide
/-- E7. -/
theorem test_getcfg_length : answers (exec (.getcfg .length) (blk [0#64, 0#64, 0#64])) ⟨.ok, 3#64⟩ = true := by decide

/-! ### Buffer Manager -/

/-- BM1. -/
theorem test_resize :
    nextWith (exec (.resize 3#24) (blk [0x12#64, 0x34#64]))
      (fun t => decide (t.length = 3 ∧ t.buf = [0#64, 0#64, 0#64])) = true := by decide
/-- BM3. -/
theorem test_resize_above_capacity : answers (exec (.resize 5#24) (blk [0x12#64])) ⟨.allocError, 0#64⟩ = true := by
  decide
/-- BM6. -/
theorem test_fill :
    nextWith (exec (.fill 0x5A#64) (blk [0#64, 0#64])) (fun t => decide (t.buf = [0x5A#64, 0x5A#64])) = true := by decide
/-- BM7. -/
theorem test_clear :
    nextWith (exec .clear (blk [0x5A#64, 0x5A#64])) (fun t => decide (t.buf = [0#64, 0#64])) = true := by decide
/-- BM8. -/
theorem test_setall :
    nextWith (exec .setall (blk [0#64, 0#64])) (fun t => decide (t.buf = [0xFF#64, 0xFF#64])) = true := by decide
/-- R133: with `W = 64` the value is 0xFFFFFFFFFFFFFFFF. -/
theorem test_setall_64 :
    nextWith (exec .setall { blk [0#64] with params := { params8 with width := .w64 } })
      (fun t => decide (t.buf = [0xFFFFFFFFFFFFFFFF#64])) = true := by decide
/-- BM10. -/
theorem test_write :
    nextWith (exec (.write 1#24 0x80#64) (blk [0#64, 0#64])) (fun t => decide (t.buf = [0#64, 0x80#64])) = true := by decide
/-- BM11. -/
theorem test_write_beyond : answers (exec (.write 2#24 0x80#64) (blk [0#64, 0x80#64])) ⟨.indexError, 0#64⟩ = true := by
  decide
/-- BM12. -/
theorem test_read : answers (exec (.read 1#24) (blk [0#64, 0x80#64])) ⟨.ok, 0x80#64⟩ = true := by decide
/-- BM13. -/
theorem test_read_beyond : answers (exec (.read 2#24) (blk [0#64, 0x80#64])) ⟨.indexError, 0#64⟩ = true := by decide
/-- BM15. -/
theorem test_overwrite :
    nextWith (exec (.overwrite 3#24 [0x0F#64, 0x33#64, 0xA5#64]) (blk [0x12#64, 0x34#64]))
      (fun t => decide (t.length = 3 ∧ t.buf = [0x0F#64, 0x33#64, 0xA5#64] ∧ t.trace = [])) = true := by decide
/-- E12. -/
theorem test_overwrite_zero : answers (exec (.overwrite 0#24 []) (blk [0x12#64])) ⟨.configError, 0#64⟩ = true := by
  decide

/-! ### Bit Policy -/

/-- BP5: EACH resets the budget at every element. -/
theorem test_bits_each :
    bits .w8 ⟨.shiftRegister, .lsbFirst, .each, 3#7, false⟩ [0x05#64, 0x02#64, 0x07#64] =
      [true, false, true, false, true, false, true, true, true] := by decide
/-- BP7: the same under ones-complement. -/
theorem test_bits_each_inverted :
    bits .w8 ⟨.shiftRegister, .lsbFirst, .each, 3#7, true⟩ [0x05#64, 0x02#64, 0x07#64] =
      [false, true, false, true, false, true, false, false, false] := by decide
/-- BP9: MSB_FIRST starts at the last element. -/
theorem test_bits_overall_msb :
    bits .w8 ⟨.shiftRegister, .msbFirst, .overall, 3#7, false⟩ [0x05#64, 0x02#64, 0x07#64] = [true, true, true] := by
  decide
/-- BP11: the low 12 bits, highest first. -/
theorem test_bits_msb_low_bits :
    bits .w16 ⟨.shiftRegister, .msbFirst, .overall, 12#7, false⟩ [0x1234#64] =
      [false, false, true, false, false, false, true, true, false, true, false, false] := by decide

/-! ### COMMIT -/

/-- CM1. -/
theorem test_commit_trace :
    commitTrace .w8 ⟨.shiftRegister, .lsbFirst, .overall, 2#7, false⟩ [0x03#64] =
      [.writeLevel .latch .low, .writeLevel .clock .low,
       .writeLevel .data .high, .writeLevel .clock .high, .writeLevel .clock .low,
       .writeLevel .data .high, .writeLevel .clock .high, .writeLevel .clock .low,
       .writeLevel .latch .high, .writeLevel .latch .low] := by decide
/-- CM2: the pins after it, and the counter. -/
theorem test_commit_end :
    (commitEnd (blkCfg ⟨.shiftSpi, .lsbFirst, .overall, 2#7, false⟩ [0x03#64])).pins = ⟨.high, .low, .high, false⟩ ∧
    (commitEnd (blkCfg ⟨.shiftSpi, .lsbFirst, .overall, 2#7, false⟩ [0x03#64])).bitCounter = 2 := by decide
/-- R180 on CM7: its last bit is 1, and EACH leaves the counter at `B`. -/
theorem test_runCommit :
    (runCommit (blkCfg ⟨.shiftRegister, .lsbFirst, .each, 3#7, false⟩ [0x05#64, 0x02#64, 0x07#64])).trace.length = 31 ∧
    (runCommit (blkCfg ⟨.shiftRegister, .lsbFirst, .each, 3#7, false⟩ [0x05#64, 0x02#64, 0x07#64])).bitCounter = 3 := by
  decide
/-- R184: the data event of bit 1 of 0x05 drives LOW. -/
theorem test_commit_data_step :
    nextWith (step { blk [0x05#64] with bitCounter := 1, seq := .commit .data ⟨0, 0, 0x05#64, 1⟩ .idle })
      (fun t => decide (t.trace = [.writeLevel .data .low] ∧ t.seq = .commit .clkHi ⟨0, 0, 0x05#64, 1⟩ .idle)) = true := by
  decide
/-- R164: the budget ends the traversal under OVERALL. -/
theorem test_commit_budget_step :
    nextWith (step { blkCfg ⟨.shiftRegister, .lsbFirst, .overall, 2#7, false⟩ [0x05#64, 0x01#64] with
        bitCounter := 1, seq := .commit .clkLo ⟨0, 0, 0x05#64, 1⟩ .idle })
      (fun t => decide (t.seq = .commit .latchHi ⟨0, 0, 0x05#64, 2⟩ .idle ∧ t.bitCounter = 2)) = true := by decide

/-! ### AUTOSENSE -/

/-- AS6: 60 events. -/
theorem test_autosense_trace_length :
    (autosenseTrace { blk [0x77#64] with
      params := { params8 with maxBankCount := 1, flushCommits := 1 }, senseIn := [.low] }).length = 60 := by decide
/-- AS3, AS4: not found, and found at the last iteration, give the same count. -/
theorem test_bankCount :
    bankCount { blk [0#64] with senseIn := [.low, .low, .low, .low] } = 4 ∧
    bankCount { blk [0#64] with senseIn := [.low, .low, .low, .high] } = 4 ∧
    bankCount { blk [0#64] with senseIn := [.low, .high] } = 2 := by decide
/-- AS7: the marker goes into slot 2 under MSB_FIRST. -/
theorem test_marker_step :
    nextWith (step { blkCfg ⟨.shiftRegister, .msbFirst, .overall, 8#7, false⟩ [0#64, 0#64, 0#64] with seq := .calib .mark })
      (fun t => decide (t.buf = [0#64, 0#64, 0x80#64] ∧ t.cal.slot = 2)) = true := by decide
/-- AS5: under ones-complement the marker level is LOW. -/
theorem test_sample_step :
    answers (step { blkCfg ⟨.shiftRegister, .lsbFirst, .overall, 8#7, true⟩ [0#64] with
        seq := .calib .sample, senseIn := [.low], cal := ⟨2, 4, 0⟩ }) ⟨.ok, 2#64⟩ = true := by decide

/-! ### Witnesses: every statement's hypotheses can be met -/

/-- A ready block to which the host presents `t`. -/
def presenting (t : Transaction) : State := { blk [0x12#64, 0x34#64] with inbox := [⟨t, none⟩] }

/-- A busy block: a COMMIT has just been accepted. -/
def busy : State := { blk [0x12#64, 0x34#64] with seq := .commit .latchLo Cursor.start .idle }

theorem blk_inv (xs : List Elem) (h₁ : 1 ≤ xs.length) (h₂ : xs.length ≤ 4)
    (h₃ : Memory.wf .w8 xs.length xs = true) : Inv (blk xs) where
  params_legal := by show params8.legal; decide
  length_pos := h₁
  length_le := h₂
  buf_wf := h₃
  bitLength_le := by show (8 : Nat) ≤ 8; decide
  bitCounter_le := Nat.zero_le _
  bank_le := Nat.zero_le _
  flush_le := Nat.zero_le _
  seq_ok := trivial

theorem witness_inv : Inv (blk [0x12#64, 0x34#64]) := blk_inv _ (by decide) (by decide) (by decide)

theorem busy_inv : Inv busy where
  params_legal := by decide
  length_pos := by decide
  length_le := by decide
  buf_wf := by decide
  bitLength_le := by decide
  bitCounter_le := by decide
  bank_le := by decide
  flush_le := by decide
  seq_ok := ⟨trivial, trivial⟩

theorem witness_DecodeOfEncodeIsTheCommand : (Instr.overwrite 0xFFFFFF#24 []).wellFormed = false ∧
    (Instr.overwrite 1#24 [0#64]).wellFormed = true ∧ (Instr.setbitlen 0xFFFFFF#24).wellFormed = true := by decide
theorem witness_DecodedTransactionIsItsEncoding : decode ⟨0xF0000002#32, []⟩ = .ok (.getcfg .width) := rfl
theorem witness_OpcodeRowsNeverOverlap :
    ∃ r ∈ opcodeRows, r.hits 0xB0FFFFFF#32 = true := ⟨⟨.read, 0xB0000000#32, 0xFF000000#32⟩, by decide, by decide⟩
theorem witness_ReservedFieldRaisesIllegalCommand :
    Presented (presenting ⟨0xD1000000#32, []⟩) ⟨0xD1000000#32, []⟩ [] ∧ (0xD1000000#32).extractLsb' 24 4 ≠ 0#4 :=
  ⟨⟨by decide, none, rfl⟩, by decide⟩
theorem witness_OpcodeZeroRaisesIllegalCommand :
    Presented (presenting ⟨0#32, []⟩) ⟨0#32, []⟩ [] ∧ (0#32).extractLsb' 28 4 = 0#4 := ⟨⟨by decide, none, rfl⟩, by decide⟩
theorem witness_SelectorThreeRaisesIllegalCommand :
    Presented (presenting ⟨0xF0000003#32, []⟩) ⟨0xF0000003#32, []⟩ [] := ⟨by decide, none, rfl⟩
theorem witness_MustBeZeroArgBitRaisesIllegalCommand_b :
    Presented (presenting ⟨0x10000002#32, []⟩) ⟨0x10000002#32, []⟩ [] ∧
      (0x10000002#32).extractLsb' 28 4 ∈ [0x1#4, 0x2#4, 0x3#4, 0x4#4] ∧ (0x10000002#32).extractLsb' 1 23 ≠ 0#23 :=
  ⟨⟨by decide, none, rfl⟩, by decide, by decide⟩
theorem witness_MustBeZeroArgBitRaisesIllegalCommand_n :
    Presented (presenting ⟨0xD0000001#32, []⟩) ⟨0xD0000001#32, []⟩ [] ∧
      (0xD0000001#32).extractLsb' 28 4 ∈ [0x7#4, 0x8#4, 0x9#4, 0xD#4, 0xE#4] ∧ (0xD0000001#32).extractLsb' 0 24 ≠ 0#24 :=
  ⟨⟨by decide, none, rfl⟩, by decide, by decide⟩
theorem witness_MustBeZeroArgBitRaisesIllegalCommand_s :
    Presented (presenting ⟨0xF0000004#32, []⟩) ⟨0xF0000004#32, []⟩ [] ∧
      (0xF0000004#32).extractLsb' 28 4 = 0xF#4 ∧ (0xF0000004#32).extractLsb' 2 22 ≠ 0#22 :=
  ⟨⟨by decide, none, rfl⟩, by decide, by decide⟩
theorem witness_WrongDataCountRaisesIllegalCommand :
    Presented (presenting ⟨(encode (.fill 0#64)).cw, []⟩) ⟨(encode (.fill 0#64)).cw, []⟩ [] ∧
      (Instr.fill 0#64).wellFormed = true ∧ ([] : List DataWord).length ≠ (Instr.fill 0#64).dataWords.length :=
  ⟨⟨by decide, none, rfl⟩, by decide, by decide⟩
theorem witness_StepRunsThePresentedCommand :
    Presented (presenting ⟨0xD0000000#32, []⟩) ⟨0xD0000000#32, []⟩ [] ∧ decode ⟨0xD0000000#32, []⟩ = .ok .commit ∧
      decodeTableWord 32 0xD0000000 = some .commit := ⟨⟨by decide, none, rfl⟩, rfl, by decide⟩
theorem witness_SequencerStepsWhileTheHostWaits :
    (busy.faulted = false ∧ busy.seq = .commit .latchLo Cursor.start .idle ∧ hostWaits busy = true) ∧
    (hostWaits { busy with seq := .calib .input } = true) ∧ Ready State.reset ∧ State.reset.inbox = [] := by decide
theorem witness_CommandInFlightMarksHostOverlap : busy.faulted = false ∧ busy.seq ≠ .idle := by decide
theorem witness_EarlyTransactionMarksHostOverlap :
    ({ busy with inbox := [⟨⟨0#32, []⟩, some 0⟩] } : State).inbox = ⟨⟨0#32, []⟩, some 0⟩ :: [] ∧
    ({ busy with inbox := [⟨⟨0#32, []⟩, some 1⟩] } : State).inbox = ⟨⟨0#32, []⟩, some (0 + 1)⟩ :: [] := by decide
theorem witness_FaultMarkIsSetOnlyByOverlap :
    (hostOverlap busy).faulted = true ∧ (∃ t, step busy = .next t) ∧
    ∃ t, step { busy with inbox := [⟨⟨0#32, []⟩, some 0⟩] } = .next t ∧ t.faulted = true :=
  ⟨rfl, ⟨_, rfl⟩, _, rfl, rfl⟩
theorem witness_InvariantHoldsAtReset : params8.legal := by decide
theorem witness_EveryStepKeepsTheInvariant : Inv busy ∧ ∃ t, step busy = .next t := ⟨busy_inv, _, rfl⟩
theorem witness_OnlyHostOverlapStopsTheBlock :
    Inv busy ∧ busy.faulted = false ∧ step (hostOverlap busy) = .fault .hostOverlap := ⟨busy_inv, rfl, rfl⟩
theorem witness_NoStepChangesTheParameters : ∃ t, step busy = .next t := ⟨_, rfl⟩
theorem witness_EveryCommandInFlightEnds :
    Inv busy ∧ busy.faulted = false ∧ busy.seq ≠ .idle ∧ hostWaits busy = true :=
  ⟨busy_inv, rfl, by decide, rfl⟩
theorem witness_EachConfigurationFieldHasItsWriters :
    nextWith (exec (.setproto .shiftSpi) (blk [0#64])) (fun t => decide (t.cfg.protocol ≠ (blk [0#64]).cfg.protocol)) = true ∧
    nextWith (exec (.setorder .msbFirst) (blk [0#64])) (fun t => decide (t.cfg.bitOrder ≠ (blk [0#64]).cfg.bitOrder)) = true ∧
    nextWith (exec (.setmode .each) (blk [0#64])) (fun t => decide (t.cfg.bitLengthMode ≠ (blk [0#64]).cfg.bitLengthMode)) = true ∧
    nextWith (exec (.setonesc true) (blk [0#64])) (fun t => decide (t.cfg.onesComplement ≠ (blk [0#64]).cfg.onesComplement)) = true ∧
    nextWith (exec (.setbitlen 0#24) (blk [0#64])) (fun t => decide (t.cfg.bitLength ≠ (blk [0#64]).cfg.bitLength)) = true ∧
    nextWith (exec (.resize 4#24) (blk [0#64])) (fun t => decide (t.length ≠ (blk [0#64]).length)) = true := by decide
theorem witness_ConfigurationIsFixedInFlight : busy.seq ≠ .idle ∧ ∃ t, step busy = .next t := ⟨by decide, _, rfl⟩
theorem witness_CommitNeverWritesTheBuffer :
    (∃ t, exec .commit (blk [0x12#64]) = .next t) ∧
    busy.seq = .commit .latchLo Cursor.start .idle ∧ ∃ t, step busy = .next t := ⟨⟨_, rfl⟩, rfl, _, rfl⟩
theorem witness_EachStepEmitsAtMostOneEvent :
    ∃ t, step { busy with pins := ⟨.low, .low, .low, true⟩ } = .next t ∧ t.trace = [.writeLevel .latch .low] :=
  ⟨_, rfl, rfl⟩
theorem witness_EveryCommandIsAnswered :
    Ready (blk [0#64]) ∧ (Instr.commit = .commit ∨ Instr.commit = .autosense) ∧
      Instr.clear ≠ .commit ∧ Instr.clear ≠ .autosense := by decide
theorem witness_ErrorChangesNoState :
    answers (exec (.read 1#24) (blk [0#64])) ⟨.indexError, 0#64⟩ = true ∧ Status.indexError ≠ .ok ∧ Ready (blk [0#64]) := by
  decide
theorem witness_CommandsAreIdempotent : Ready (blk [0x12#64]) ∧ Instr.resize 2#24 ≠ .commit ∧ Instr.resize 2#24 ≠ .autosense := by
  decide
/-- The one hypothesis of the four setters' statements, of GETCFG's, and of CLEAR's and SETALL's. -/
theorem witness_Ready : Ready (blk [0x12#64, 0x34#64]) := by decide
theorem witness_SetbitlenWritesOrRejects :
    Ready (blk [0#64]) ∧ (8#24).toNat ≤ (blk [0#64]).params.width.bits ∧ (blk [0#64]).params.width.bits < (9#24).toNat := by
  decide
theorem witness_ResizeDiscardsAndAllocatesZeros :
    Ready (blk [0#64]) ∧ 4#24 ≠ 0#24 ∧ (4#24).toNat ≤ (blk [0#64]).params.maxLen ∧
      5#24 ≠ 0#24 ∧ (blk [0#64]).params.maxLen < (5#24).toNat := by decide
theorem witness_FillOverwritesEveryElement : Ready (blk [0#64]) ∧ (0xFF#64 : DataWord).toNat < 2 ^ Width.w8.bits := by decide
theorem witness_WriteAssignsOneElement :
    Ready (blk [0#64, 0#64]) ∧ (1#24).toNat < (blk [0#64, 0#64]).length ∧ (blk [0#64, 0#64]).length ≤ (2#24).toNat := by decide
theorem witness_ReadReturnsTheElement :
    Ready (blk [0#64, 0#64]) ∧ Memory.wf .w8 (blk [0#64, 0#64]).length (blk [0#64, 0#64]).buf = true ∧
      (1#24).toNat < (blk [0#64, 0#64]).length ∧ (blk [0#64, 0#64]).length ≤ (2#24).toNat := by decide
theorem witness_OverwriteReplacesLengthAndContents :
    Ready (blk [0#64]) ∧ ([1#64] : List DataWord).length ≠ (0#24).toNat ∧
      ([1#64, 2#64, 3#64, 4#64] : List DataWord).length = (4#24).toNat ∧ (4#24).toNat ≤ (blk [0#64]).params.maxLen ∧
      ([1#64, 2#64, 3#64, 4#64, 5#64] : List DataWord).length = (5#24).toNat ∧
      (blk [0#64]).params.maxLen < (5#24).toNat := by decide
theorem witness_ReadAfterWrite :
    Ready (blk [0#64, 7#64]) ∧ Memory.wf .w8 2 (blk [0#64, 7#64]).buf = true ∧ (0#24).toNat < (blk [0#64, 7#64]).length ∧
      1#24 ≠ 0#24 ∧ (blk [0#64, 7#64]).buf[(1#24).toNat]? = some 7#64 ∧ (blk [0#64, 7#64]).length ≤ (2#24).toNat := by decide
theorem witness_RegisterCommandsFrame :
    (∃ t, exec (.setbitlen 9#24) (blk [0#64]) = .next t) ∧ (∃ t, exec (.read 0#24) (blk [0#64]) = .next t) ∧
    ∃ t, exec (.getcfg .word) busy = .next t := ⟨⟨_, rfl⟩, ⟨_, rfl⟩, _, rfl⟩
theorem witness_BufferCommandsFrame :
    (∃ t, exec (.resize 4#24) (blk [0#64]) = .next t) ∧ (∃ t, exec (.write 0#24 9#64) (blk [0#64, 7#64]) = .next t) ∧
    (1 : Nat) ≠ uOperand 0#24 ∧ (∃ t, exec .clear (blk [0#64]) = .next t) ∧ (blk [0#64]).length ≤ 1 :=
  ⟨⟨_, rfl⟩, ⟨_, rfl⟩, by decide, ⟨_, rfl⟩, by decide⟩
theorem witness_EngineCommandsStartFrame :
    (∃ t, exec .commit (blk [0#64]) = .next t) ∧ (∃ t, exec .autosense (blk [0#64]) = .next t) ∧ Ready (blk [0#64]) :=
  ⟨⟨_, rfl⟩, ⟨_, rfl⟩, by decide⟩
theorem witness_TraversalFollowsBitOrder :
    (order ⟨.shiftRegister, .msbFirst, .each, 8#7, false⟩ 3) = [2, 1, 0] ∧ 2 < 3 ∧
    (order ⟨.shiftRegister, .lsbFirst, .each, 8#7, false⟩ 3) = [0, 1, 2] := by decide
theorem witness_BitIndexFollowsBitOrder :
    bitIndex ⟨.shiftRegister, .msbFirst, .each, 3#7, false⟩ 2 = 0 ∧ 2 < (3#7).toNat ∧
    bitIndex ⟨.shiftRegister, .lsbFirst, .each, 3#7, false⟩ 2 = 2 := by decide
theorem witness_TransmittedValueInvertsEachBit :
    tx .w8 ⟨.shiftRegister, .lsbFirst, .each, 8#7, true⟩ 0x0F#64 = 0xF0#64 ∧
    tx .w8 ⟨.shiftRegister, .lsbFirst, .each, 8#7, false⟩ 0x0F#64 = 0x0F#64 := by decide
/-- One configuration for each of the four clauses. -/
theorem witness_EmittedBitsOfEachModeAndOrder :
    ((Cfg.mk .shiftRegister .lsbFirst .overall 8#7 false).bitLengthMode = .overall ∧
      (Cfg.mk .shiftRegister .lsbFirst .overall 8#7 false).bitOrder = .lsbFirst) ∧
    ((Cfg.mk .shiftRegister .msbFirst .overall 0#7 true).bitLengthMode = .overall ∧
      (Cfg.mk .shiftRegister .msbFirst .overall 0#7 true).bitOrder = .msbFirst) ∧
    ((Cfg.mk .shiftSpi .lsbFirst .each 0#7 false).bitLengthMode = .each ∧
      (Cfg.mk .shiftSpi .lsbFirst .each 0#7 false).bitOrder = .lsbFirst) ∧
    ((Cfg.mk .shiftSpi .msbFirst .each 8#7 true).bitLengthMode = .each ∧
      (Cfg.mk .shiftSpi .msbFirst .each 8#7 true).bitOrder = .msbFirst) := by decide
theorem witness_PulseCounts : ([0x05#64, 0x02#64] : List Elem) ≠ [] ∧ (8#7).toNat ≤ Width.w8.bits ∧
    (Cfg.mk .shiftRegister .msbFirst .overall 8#7 false).bitLengthMode = .overall ∧
    (Cfg.mk .shiftRegister .msbFirst .each 8#7 false).bitLengthMode = .each := by decide
theorem witness_BitOrderSymmetry :
    ([0x01#64, 0x80#64] : List Elem) ≠ [] ∧ (8#7).toNat ≤ Width.w8.bits ∧ (0#7).toNat = 0 := by decide
theorem witness_CommitCompletesWithItsTrace :
    Inv (blk [0x12#64, 0x34#64]) ∧ Ready (blk [0x12#64, 0x34#64]) ∧ hostWaits (blk [0x12#64, 0x34#64]) = true :=
  ⟨witness_inv, by decide, by decide⟩
theorem witness_ZeroBudgetSendsNothing : (Cfg.mk .shiftSpi .lsbFirst .each 0#7 false).bitLength = 0#7 := by decide
theorem witness_BankCountIsTheFirstMarkerSample :
    (blk [0#64]).params.legal ∧ 0 + 1 < bankCount { blk [0#64] with senseIn := [.low, .high] } ∧
      bankCount { blk [0#64] with senseIn := [.low, .high] } < (blk [0#64]).params.maxBankCount := by decide
theorem witness_SampleIsAFreeInput :
    ({ blk [0#64] with seq := .calib .sample, senseIn := [.high] } : State).senseIn = .high :: [] ∧
    hostWaits { blk [0#64] with seq := .calib .sample, senseIn := [.high] } = true := by decide
theorem witness_MarkerIsSentOnlyAtFullWidth :
    1 ≤ (blk [0#64]).length ∧ bitBudget (blk [0#64]).cfg = (blk [0#64]).params.width.bits := by decide

end Sys2Proof.Tests
end

/-! # Scope (spec/00_scope.md): no step writes the parameters, and reset establishes the invariant -/

namespace Sys2Proof.Machine

/-! ## What presenting a command never changes -/

/-- What a command leaves as it was on being presented, whether the block runs it, rejects it or marks an overlap. COMMIT
and AUTOSENSE only start the sequencer here; their pins, counters and trace change in the steps that follow. -/
structure CommandFrame (s t : State) : Prop where
  params : t.params = s.params
  bitCounter : t.bitCounter = s.bitCounter
  pins : t.pins = s.pins
  cal : t.cal = s.cal
  inbox : t.inbox = s.inbox
  senseIn : t.senseIn = s.senseIn
  senseDraws : t.senseDraws = s.senseDraws
  trace : t.trace = s.trace

theorem hostOverlap_frame (s : State) : CommandFrame s (hostOverlap s) := by constructor <;> rfl

theorem raise_frame (s : State) (st : Status) : CommandFrame s (raise s st) := by constructor <;> rfl

/-- An acceptance has the frame of the command it runs: the overlap of a busy block has it too. -/
theorem accept_frame {s t : State} {run : State → State} (hrun : CommandFrame s (run s))
    (h : accept s run = .next t) : CommandFrame s t := by
  rcases accept_eq_next.1 h with ⟨-, rfl⟩ | ⟨-, -, rfl⟩
  · exact hrun
  · exact hostOverlap_frame s

/-- No arm of `exec` writes more than the configuration, the buffer and its length, the sequencer and the responses. -/
theorem exec_eq_accept_frame (i : Instr) :
    ∃ run : State → State, (∀ s, exec i s = accept s run) ∧ ∀ s, CommandFrame s (run s) := by
  cases i <;> refine ⟨_, fun _ => rfl, fun s => ?_⟩
  case setbitlen | resize | write | overwrite => split_ifs <;> constructor <;> rfl
  case read => split <;> constructor <;> rfl
  all_goals constructor <;> rfl

theorem exec_frame {i : Instr} {s t : State} (h : exec i s = .next t) : CommandFrame s t := by
  obtain ⟨run, hexec, hrun⟩ := exec_eq_accept_frame i
  exact accept_frame (hrun s) (hexec s ▸ h)

/-- A transaction that decodes to no command is answered by a raise, which has the frame as every command has. -/
theorem present_frame {txn : Transaction} {s t : State} (h : present txn s = .next t) : CommandFrame s t := by
  cases hd : decode txn with
  | ok i => exact exec_frame (present_of_decode hd s ▸ h)
  | error r => exact accept_frame (raise_frame s .illegalCommand) (present_of_illegal hd s ▸ h)

/-! ## The parameters (R6, R36) -/

theorem step_params {s t : State} (h : step s = .next t) : t.params = s.params := by
  obtain ⟨-, ⟨rest, hseq⟩ | ⟨-, r, rest, -, hp⟩ | ⟨-, txn, rest, -, rfl⟩⟩ := step_eq_next h
  · exact (sequencerStep_frame hseq).1
  · exact (present_frame hp).params
  · rfl

/-- Settles O19: each of the three things a step can be leaves the parameters as they were. -/
theorem noStepChangesTheParameters : Obligations.NoStepChangesTheParameters :=
  fun _ _ => step_params

/-! ## The invariant at reset (R28, R37) -/

/-- `bitLength` is `W` at reset: every width fits the 7-bit field of R24. -/
theorem bitBudget_resetWith (p : Params) : bitBudget (State.resetWith p).cfg = p.width.bits :=
  Nat.mod_eq_of_lt (lt_of_le_of_lt (width_bits_le p.width) (by decide))

theorem resetWith_inv {p : Params} (hp : p.legal) : Inv (State.resetWith p) where
  params_legal := hp
  length_pos := le_rfl
  length_le := hp.1
  buf_wf := resetWith_wf p
  bitLength_le := (bitBudget_resetWith p).le
  bitCounter_le := Nat.zero_le _
  bank_le := Nat.zero_le _
  flush_le := Nat.zero_le _
  seq_ok := trivial

/-- Settles O16: the invariant holds at reset for all legal parameters, and `Config.params` is legal. -/
theorem invariantHoldsAtReset : Obligations.InvariantHoldsAtReset :=
  ⟨fun _ => resetWith_inv, rfl, resetWith_inv (by decide)⟩

end Sys2Proof.Machine

/-! # State (spec/10_state.md): what a command can do, the invariant, the fault mark, the writers and the events -/

namespace Sys2Proof.Machine

/-! ## What a command can do in an idle block -/

/-- The configurations a command can write over `c` in a block of width `w` (R21 to R25). -/
inductive CfgWrite (w : Width) (c : Cfg) : Instr → Cfg → Prop
  | protocol (p : Protocol) : CfgWrite w c (.setproto p) { c with protocol := p }
  | bitOrder (o : BitOrder) : CfgWrite w c (.setorder o) { c with bitOrder := o }
  | bitLengthMode (m : LenMode) : CfgWrite w c (.setmode m) { c with bitLengthMode := m }
  | onesComplement (b : Bool) : CfgWrite w c (.setonesc b) { c with onesComplement := b }
  | bitLength (n : BitVec 24) (hn : uOperand n ≤ w.bits) :
      CfgWrite w c (.setbitlen n) { c with bitLength := BitVec.ofNat 7 (uOperand n) }

/-- Whether a command replaces `length` and contents together (R26). -/
def Replaces (i : Instr) : Prop := (∃ n, i = .resize n) ∨ ∃ n ds, i = .overwrite n ds

/-- What running a command makes of the state of an idle block: it answers without storing anything, writes one
configuration field, stores elements of `W` bits, replaces the buffer by one of legal length, or starts the
sequencer. -/
inductive CommandEffect (i : Instr) (s : State) : State → Prop
  | answer (st : Status) (v : BitVec 64) : CommandEffect i s (respond s st v)
  | configure {c : Cfg} (hc : CfgWrite s.params.width s.cfg i c) : CommandEffect i s (respond (setCfg s c) .ok 0#64)
  | fill {v : Elem} (hv : v.toNat < 2 ^ s.params.width.bits) : CommandEffect i s (respond (memFill s v) .ok 0#64)
  | store (idx : Nat) {v : Elem} (hv : v.toNat < 2 ^ s.params.width.bits) :
      CommandEffect i s (respond (memWrite s idx v) .ok 0#64)
  | replace {xs : List Elem} (hi : Replaces i) (hpos : 1 ≤ xs.length) (hle : xs.length ≤ s.params.maxLen)
      (hx : ∀ x ∈ xs, x.toNat < 2 ^ s.params.width.bits) : CommandEffect i s (respond (memReplace s xs) .ok 0#64)
  | commit (hi : i = .commit) : CommandEffect i s (startCommit s .idle)
  | autosense (hi : i = .autosense) : CommandEffect i s (setSeq s (.calib .input))

/-- The arm of each command, as one of the effects. -/
theorem exec_eq_accept_effect (i : Instr) :
    ∃ run : State → State, (∀ s, exec i s = accept s run) ∧ ∀ s, CommandEffect i s (run s) := by
  cases i <;> refine ⟨_, fun _ => rfl, fun s => ?_⟩
  case setproto p => exact .configure (.protocol p)
  case setorder o => exact .configure (.bitOrder o)
  case setmode m => exact .configure (.bitLengthMode m)
  case setonesc b => exact .configure (.onesComplement b)
  case setbitlen n =>
    split_ifs with hn
    · exact .answer _ _
    · exact .configure (.bitLength n (not_lt.1 hn))
  case resize n =>
    split_ifs with h0 hn
    · exact .answer _ _
    · exact .answer _ _
    · exact .replace (.inl ⟨n, rfl⟩) (by simp; omega) (by simp; omega) (by simp)
  case fill d => exact .fill (elemOf_lt _ _)
  case clear => exact .fill (zero_lt_width _)
  case setall => exact .fill (elemOf_lt _ _)
  case write idx d =>
    split_ifs
    · exact .answer _ _
    · exact .store _ (elemOf_lt _ _)
  case read idx => split <;> exact .answer _ _
  case overwrite n ds =>
    split_ifs with hl h0 hn
    · exact .answer _ _
    · exact .answer _ _
    · exact .answer _ _
    · refine .replace (.inr ⟨n, ds, rfl⟩) (by simp; omega) (by simp; omega) fun x hx => ?_
      obtain ⟨d, -, rfl⟩ := List.mem_map.1 hx
      exact elemOf_lt _ _
  case commit => exact .commit rfl
  case autosense => exact .autosense rfl
  case getcfg sel => exact .answer _ _

/-- Everything a presented command can answer as a next state. -/
theorem exec_eq_next {i : Instr} {s t : State} (h : exec i s = .next t) :
    (s.seq = .idle ∧ CommandEffect i s t) ∨ (s.seq ≠ .idle ∧ t = hostOverlap s) := by
  obtain ⟨run, hexec, heffect⟩ := exec_eq_accept_effect i
  rcases accept_eq_next.1 (hexec s ▸ h) with ⟨hready, rfl⟩ | ⟨-, hbusy, rfl⟩
  · exact .inl ⟨hready.1, heffect s⟩
  · exact .inr ⟨hbusy, rfl⟩

/-- Everything a transaction can make of an idle block: a command's effect, or the IllegalCommand response. -/
theorem present_eq_next_of_idle {txn : Transaction} {s t : State} (hq : s.seq = .idle)
    (h : present txn s = .next t) : (∃ i, CommandEffect i s t) ∨ t = raise s .illegalCommand := by
  cases hd : decode txn with
  | ok i =>
    rcases exec_eq_next (present_of_decode hd s ▸ h) with ⟨-, heffect⟩ | ⟨hbusy, -⟩
    · exact .inl ⟨i, heffect⟩
    · exact absurd hq hbusy
  | error r =>
    rcases accept_eq_next.1 (present_of_illegal hd s ▸ h) with ⟨-, rfl⟩ | ⟨-, hbusy, -⟩
    · exact .inr rfl
    · exact absurd hq hbusy

/-! ## The part of the invariant that does not speak of the sequencer -/

/-- The clauses of `Inv` but `seq_ok`: they read neither the sequencer, the pins nor the ports. -/
structure DataInv (s : State) : Prop where
  params_legal : s.params.legal
  length_pos : 1 ≤ s.length
  length_le : s.length ≤ s.params.maxLen
  buf_wf : Memory.wf s.params.width s.length s.buf = true
  bitLength_le : bitBudget s.cfg ≤ s.params.width.bits
  bitCounter_le : s.bitCounter ≤ s.params.width.bits
  bank_le : s.cal.bank ≤ s.params.maxBankCount
  flush_le : s.cal.flush ≤ s.params.flushCommits

theorem inv_iff {s : State} : Inv s ↔ DataInv s ∧ seqInv s :=
  ⟨fun h => ⟨{ h with }, h.seq_ok⟩, fun ⟨hd, hq⟩ => { hd with seq_ok := hq }⟩

section DataRules

variable {s : State}

@[simp] theorem dataInv_setSeq {q : SeqState} : DataInv (setSeq s q) ↔ DataInv s :=
  ⟨fun h => { h with }, fun h => { h with }⟩

@[simp] theorem dataInv_emit {e : Event} : DataInv (emit s e) ↔ DataInv s :=
  ⟨fun h => { h with }, fun h => { h with }⟩

@[simp] theorem dataInv_respond {st : Status} {v : BitVec 64} : DataInv (respond s st v) ↔ DataInv s :=
  ⟨fun h => { h with }, fun h => { h with }⟩

@[simp] theorem dataInv_sample : DataInv (sample s) ↔ DataInv s := by
  refine dataInv_emit.trans ?_
  unfold takeSense
  split <;> exact ⟨fun h => { h with }, fun h => { h with }⟩

theorem DataInv.counted (h : DataInv s) {n : Nat} (hn : n ≤ s.params.width.bits) : DataInv (setBitCounter s n) :=
  { h with bitCounter_le := hn }

theorem DataInv.calibrated (h : DataInv s) {c : Cal} (hb : c.bank ≤ s.params.maxBankCount)
    (hf : c.flush ≤ s.params.flushCommits) : DataInv (setCal s c) :=
  { h with bank_le := hb, flush_le := hf }

theorem DataInv.configured (h : DataInv s) {c : Cfg} (hc : bitBudget c ≤ s.params.width.bits) :
    DataInv (setCfg s c) :=
  { h with bitLength_le := hc }

theorem DataInv.filled (h : DataInv s) {v : Elem} (hv : v.toNat < 2 ^ s.params.width.bits) :
    DataInv (memFill s v) :=
  { h with buf_wf := memFill_wf hv }

theorem DataInv.written (h : DataInv s) {idx : Nat} {v : Elem} (hv : v.toNat < 2 ^ s.params.width.bits) :
    DataInv (memWrite s idx v) :=
  { h with buf_wf := memWrite_wf h.buf_wf hv }

theorem DataInv.replaced (h : DataInv s) {xs : List Elem} (hpos : 1 ≤ xs.length)
    (hle : xs.length ≤ s.params.maxLen) (hx : ∀ x ∈ xs, x.toNat < 2 ^ s.params.width.bits) :
    DataInv (memReplace s xs) :=
  { h with length_pos := hpos, length_le := hle, buf_wf := memReplace_wf hx }

end DataRules

/-! ## The sequencer's part -/

section SequencerRules

variable {s : State} {cur : Cursor} {ret : Ret}

@[simp] theorem inv_setSeq_idle : Inv (setSeq s .idle) ↔ DataInv s :=
  inv_iff.trans (by simp [seqInv])

@[simp] theorem inv_setSeq_commit {sub : CommitSub} :
    Inv (setSeq s (.commit sub cur ret)) ↔ DataInv s ∧ commitInv sub cur s ∧ retInv ret s :=
  inv_iff.trans (and_congr dataInv_setSeq Iff.rfl)

@[simp] theorem inv_setSeq_calib {sub : CalibSub} :
    Inv (setSeq s (.calib sub)) ↔ DataInv s ∧ calibInv sub s :=
  inv_iff.trans (and_congr dataInv_setSeq Iff.rfl)

/-- While the sequencer is idle, only the data part of the invariant says anything. -/
theorem inv_of_idle (h : DataInv s) (hq : s.seq = .idle) : Inv s :=
  inv_iff.2 ⟨h, by simp [seqInv, hq]⟩

@[simp] theorem atElement_emit {e : Event} : atElement cur (emit s e) ↔ atElement cur s := Iff.rfl

@[simp] theorem retInv_emit_writeLevel {p : OutPin} {l : Level} :
    retInv ret (emit s (.writeLevel p l)) ↔ retInv ret s := by
  cases p <;> exact Iff.rfl

@[simp] theorem retInv_setBitCounter {n : Nat} : retInv ret (setBitCounter s n) ↔ retInv ret s := Iff.rfl

/-- A cursor at an element stands inside the traversal. -/
theorem atElement_lt (h : atElement cur s) : cur.k < s.length := by
  simpa using (List.getElem?_eq_some_iff.1 h.1).1

@[simp] theorem isOverall_eq_true {c : Cfg} : isOverall c = true ↔ c.bitLengthMode = .overall := by
  unfold isOverall; split <;> simp [*]

end SequencerRules

section SequencerCases

variable {s : State}

theorem sequencerStep_of_idle (h : s.seq = .idle) : sequencerStep s = .next s := by simp [sequencerStep, h]

theorem sequencerStep_of_commit {sub : CommitSub} {cur : Cursor} {ret : Ret} (h : s.seq = .commit sub cur ret) :
    sequencerStep s = commitStep sub cur ret s := by simp [sequencerStep, h]

theorem sequencerStep_of_calib {sub : CalibSub} (h : s.seq = .calib sub) :
    sequencerStep s = calibStep sub s := by simp [sequencerStep, h]

theorem seqInv_of_commit {sub : CommitSub} {cur : Cursor} {ret : Ret} (h : s.seq = .commit sub cur ret) :
    seqInv s ↔ commitInv sub cur s ∧ retInv ret s := by simp [seqInv, h]

theorem seqInv_of_calib {sub : CalibSub} (h : s.seq = .calib sub) : seqInv s ↔ calibInv sub s := by
  simp [seqInv, h]

end SequencerCases

/-! ## Rows whose step can stop -/

/-- What CM_NEXT can answer as a next state (R182, R183). -/
theorem cmNext_eq_next {cur : Cursor} {ret : Ret} {s t : State} (h : cmNext cur ret s = .next t) :
    t = setSeq s (.commit .latchHi cur ret) ∨
    ∃ e x, ¬(isOverall s.cfg = true ∧ bitBudget s.cfg ≤ s.bitCounter) ∧
      (order s.cfg s.length)[cur.k]? = some e ∧ s.buf[e]? = some x ∧ t = cmStartElement cur ret e x s := by
  unfold cmNext at h
  split_ifs at h with hend
  · cases h; exact .inl rfl
  · split at h
    · cases h
    · rename_i e he
      split at h
      · cases h
      · rename_i x hx
        cases h
        exact .inr ⟨e, x, fun hb => hend (.inr hb), he, (memRead_eq_some.1 hx).2, rfl⟩

/-- What AS_MARK can answer as a next state (R224). -/
theorem asMark_eq_next {s t : State} (h : asMark s = .next t) :
    (order s.cfg s.length)[0]? = some (firstSlot s.cfg s.length) ∧
    t = setSeq (setCal (memWrite s (firstSlot s.cfg s.length) (elemMarker s.params.width))
      { s.cal with slot := firstSlot s.cfg s.length, bank := 0 }) (.calib .loop) := by
  unfold asMark at h
  split at h
  · cases h
  · rename_i slot hslot
    cases h
    have hfirst : firstSlot s.cfg s.length = slot := by
      simp [firstSlot, List.headD_eq_head?_getD, List.head?_eq_getElem?, hslot]
    simp [hfirst, hslot]

/-! ## Every row keeps the invariant -/

section CommitRows

variable {s : State} {cur : Cursor} {ret : Ret}

theorem startCommit_inv (hd : DataInv s) (hr : retInv ret s) : Inv (startCommit s ret) :=
  inv_setSeq_commit.2 ⟨hd, trivial, hr⟩

theorem cmLatchLo_inv (hd : DataInv s) (hr : retInv ret s) : Inv (cmLatchLo cur ret s) := by
  simp [cmLatchLo, commitInv, hd, hr]

theorem cmClockLo_inv (hd : DataInv s) (hr : retInv ret s) : Inv (cmClockLo cur ret s) := by
  have hd' : DataInv (setBitCounter (emit s (.writeLevel .clock .low)) 0) :=
    (dataInv_emit.2 hd).counted (Nat.zero_le _)
  simp [cmClockLo, commitInv, hd', hr]

/-- The element that starts is the one the traversal names, and no bit of it has been counted: under EACH the counter
restarts, under OVERALL it is the first element (R183). -/
theorem cmStartElement_inv (hd : DataInv s) (hc : commitInv .next cur s) (hr : retInv ret s) {e : Nat} {x : Elem}
    (hend : ¬(isOverall s.cfg = true ∧ bitBudget s.cfg ≤ s.bitCounter))
    (he : (order s.cfg s.length)[cur.k]? = some e) (hx : s.buf[e]? = some x) :
    Inv (cmStartElement cur ret e x s) := by
  obtain ⟨-, -, hov⟩ := hc
  have hcount : (if isOverall s.cfg then s.bitCounter else 0) = 0 := by
    split_ifs with h
    · exact (hov (isOverall_eq_true.1 h)).2
    · rfl
  unfold cmStartElement
  rw [hcount, inv_setSeq_commit]
  refine ⟨hd.counted (Nat.zero_le _), ⟨?_, Nat.zero_le _, fun h => ?_⟩, hr⟩
  · exact ⟨he, by simp [hx], rfl, fun h => (hov h).1⟩
  · exact lt_of_not_ge fun hB => hend ⟨isOverall_eq_true.2 h, hB.trans (Nat.zero_le _)⟩

theorem cmNext_inv {t : State} (hd : DataInv s) (hc : commitInv .next cur s) (hr : retInv ret s)
    (h : cmNext cur ret s = .next t) : Inv t := by
  rcases cmNext_eq_next h with rfl | ⟨e, x, hend, he, hx, rfl⟩
  · obtain ⟨-, hcount, -⟩ := hc
    exact inv_setSeq_commit.2 ⟨hd, hcount, hr⟩
  · exact cmStartElement_inv hd hc hr hend he hx

/-- An element is complete at CM_DATA only under EACH: under OVERALL the bit step is below `B ≤ W`. -/
theorem cmData_inv (hd : DataInv s) (hc : commitInv .data cur s) (hr : retInv ret s) : Inv (cmData cur ret s) := by
  obtain ⟨hat, hi, hov⟩ := hc
  have hlt := atElement_lt hat
  obtain ⟨-, -, hcount, -⟩ := id hat
  have hB := hd.bitLength_le
  unfold cmData
  cases hm : s.cfg.bitLengthMode with
  | overall =>
    have hiB := hov hm
    rw [if_neg (by simp [maxBits, hm]; omega)]
    simp [commitInv, hd, hr, hat, hiB]
  | each =>
    split_ifs with h
    · simp [commitInv, hd, hr, hm]; omega
    · have hiB : cur.i < bitBudget s.cfg := by simp [maxBits, hm] at h; omega
      simp [commitInv, hd, hr, hat, hiB]

theorem cmClkHi_inv (hd : DataInv s) (hc : commitInv .clkHi cur s) (hr : retInv ret s) :
    Inv (cmClkHi cur ret s) := by
  simp only [commitInv] at hc
  simp [cmClkHi, commitInv, hd, hr, hc]

theorem cmClkLo_inv (hd : DataInv s) (hc : commitInv .clkLo cur s) (hr : retInv ret s) :
    Inv (cmClkLo cur ret s) := by
  obtain ⟨hat, hi⟩ := hc
  have hlt := atElement_lt hat
  obtain ⟨hk, hv, hcount, hov⟩ := hat
  have hB := hd.bitLength_le
  have hd' : DataInv (setBitCounter (emit s (.writeLevel .clock .low)) (s.bitCounter + 1)) :=
    (dataInv_emit.2 hd).counted (by simp; omega)
  unfold cmClkLo
  split_ifs with hspent hmode
  · simp [commitInv, hd', hr]; omega
  · rw [isOverall_eq_true] at hmode
    simp [commitInv, hd', hr, hmode]; omega
  · have hat' : atElement { cur with i := cur.i + 1 }
        (setBitCounter (emit s (.writeLevel .clock .low)) (s.bitCounter + 1)) :=
      ⟨hk, hv, congrArg (· + 1) hcount, hov⟩
    simp [commitInv, hd', hr, hat']; omega

theorem cmLatchHi_inv (hd : DataInv s) (hc : commitInv .latchHi cur s) (hr : retInv ret s) :
    Inv (cmLatchHi cur ret s) := by
  simp only [commitInv] at hc
  cases hp : s.cfg.protocol <;> simp [cmLatchHi, commitInv, commitLatchLevel, hd, hr, hc, hp]

theorem cmLatchIdle_inv (hd : DataInv s) (hc : commitInv .latchIdle cur s) (hr : retInv ret s) :
    Inv (cmLatchIdle cur ret s) := by
  simp only [commitInv] at hc
  simp [cmLatchIdle, commitInv, commitLatchLevel, hd, hr, hc]

/-- The sub-state a calibrator's commit goes back to finds what `retInv` has kept for it. -/
theorem cmDone_inv (hd : DataInv s) (hr : retInv ret s) : Inv (cmDone ret s) := by
  cases ret with
  | idle => simpa [cmDone] using hd
  | flushDelay => exact inv_setSeq_calib.2 ⟨hd, hr⟩
  | clear => exact inv_setSeq_calib.2 ⟨hd, hr⟩

theorem commitStep_inv {sub : CommitSub} {t : State} (hd : DataInv s) (hc : commitInv sub cur s)
    (hr : retInv ret s) (h : commitStep sub cur ret s = .next t) : Inv t := by
  cases sub
  case next => exact cmNext_inv hd hc hr h
  all_goals cases h
  case latchLo => exact cmLatchLo_inv hd hr
  case clockLo => exact cmClockLo_inv hd hr
  case data => exact cmData_inv hd hc hr
  case clkHi => exact cmClkHi_inv hd hc hr
  case clkLo => exact cmClkLo_inv hd hc hr
  case latchHi => exact cmLatchHi_inv hd hc hr
  case latchIdle => exact cmLatchIdle_inv hd hc hr
  case done => exact cmDone_inv hd hr

end CommitRows

section CalibratorRows

variable {s : State}

theorem asInput_inv (hd : DataInv s) : Inv (asInput s) := by
  simp [asInput, calibInv, hd]

theorem asZero_inv (hd : DataInv s) (hc : calibInv .zero s) : Inv (asZero s) :=
  inv_setSeq_calib.2 ⟨(hd.filled (zero_lt_width _)).calibrated hd.bank_le (Nat.zero_le _), hc, rfl⟩

theorem asFlush_inv (hd : DataInv s) (hc : calibInv .flush s) : Inv (asFlush s) := by
  unfold asFlush
  split_ifs with h
  · exact inv_setSeq_calib.2 ⟨hd, hc⟩
  · exact startCommit_inv hd ⟨hc.1, hc.2, lt_of_le_of_ne hd.flush_le h⟩

theorem asFlushDelay_inv (hd : DataInv s) (hc : calibInv .flushDelay s) : Inv (asFlushDelay s) := by
  obtain ⟨hsense, hbuf, hflush⟩ := hc
  exact inv_setSeq_calib.2 ⟨(dataInv_emit.2 hd).calibrated hd.bank_le hflush, hsense, hbuf⟩

theorem asMark_inv {t : State} (hd : DataInv s) (hc : calibInv .mark s) (h : asMark s = .next t) : Inv t := by
  obtain ⟨hsense, hbuf⟩ := hc
  obtain ⟨-, rfl⟩ := asMark_eq_next h
  obtain ⟨-, -, hbank, -⟩ := hd.params_legal
  have hmarked : DataInv (memWrite s (firstSlot s.cfg s.length) (elemMarker s.params.width)) :=
    hd.written (elemOf_lt _ _)
  refine inv_setSeq_calib.2 ⟨hmarked.calibrated (Nat.zero_le _) hd.flush_le, hsense, hbank, rfl, ?_⟩
  simp [hbuf]; rfl

theorem asLoop_inv (hd : DataInv s) (hc : calibInv .loop s) : Inv (asLoop s) := by
  obtain ⟨hsense, hbank, hpattern⟩ := hc
  exact startCommit_inv (hd.calibrated hbank hd.flush_le) ⟨hsense, Nat.succ_pos _, hpattern⟩

/-- Clearing the marker's slot leaves zeros, whichever pattern was there (R225). -/
theorem patternInv_set_slot {bank : Nat} (h : patternInv bank s) : s.buf.set s.cal.slot 0#64 = zeroBuf s := by
  obtain ⟨hslot, hbuf⟩ := h
  rw [hbuf, hslot]
  split_ifs <;> simp [markerBuf, zeroBuf]

theorem asClear_inv (hd : DataInv s) (hc : calibInv .clear s) : Inv (asClear s) := by
  obtain ⟨hsense, hbank, hpattern⟩ := hc
  exact inv_setSeq_calib.2 ⟨hd.written (zero_lt_width _), hsense, hbank, hpattern.1, patternInv_set_slot hpattern⟩

theorem asSettle_inv (hd : DataInv s) (hc : calibInv .settle s) : Inv (asSettle s) :=
  inv_setSeq_calib.2 ⟨dataInv_emit.2 hd, hc⟩

theorem asSample_inv (hd : DataInv s) (hc : calibInv .sample s) : Inv (asSample s) := by
  obtain ⟨hsense, hbank, hslot, hbuf⟩ := hc
  unfold asSample
  split_ifs with h
  · exact inv_setSeq_idle.2 (dataInv_respond.2 (dataInv_sample.2 hd))
  · have hlt : s.cal.bank < s.params.maxBankCount := lt_of_le_of_ne hd.bank_le fun he => h (.inr he)
    have hne : s.cal.bank ≠ 0 := Nat.one_le_iff_ne_zero.1 hbank
    refine inv_setSeq_calib.2 ⟨dataInv_sample.2 hd, ?_⟩
    simp_all [calibInv, patternInv, zeroBuf]

theorem calibStep_inv {sub : CalibSub} {t : State} (hd : DataInv s) (hc : calibInv sub s)
    (h : calibStep sub s = .next t) : Inv t := by
  cases sub
  case mark => exact asMark_inv hd hc h
  all_goals cases h
  case input => exact asInput_inv hd
  case zero => exact asZero_inv hd hc
  case flush => exact asFlush_inv hd hc
  case flushDelay => exact asFlushDelay_inv hd hc
  case loop => exact asLoop_inv hd hc
  case clear => exact asClear_inv hd hc
  case settle => exact asSettle_inv hd hc
  case sample => exact asSample_inv hd hc

end CalibratorRows

/-! ## Every step keeps the invariant (R28, R29, R34, R192, R223, R229) -/

theorem sequencerStep_inv {s t : State} (hinv : Inv s) (h : sequencerStep s = .next t) : Inv t := by
  obtain ⟨hd, hq⟩ := inv_iff.1 hinv
  cases hs : s.seq with
  | idle =>
    cases (sequencerStep_of_idle hs).symm.trans h
    exact hinv
  | commit sub cur ret =>
    obtain ⟨hc, hr⟩ := (seqInv_of_commit hs).1 hq
    exact commitStep_inv hd hc hr (sequencerStep_of_commit hs ▸ h)
  | calib sub => exact calibStep_inv hd ((seqInv_of_calib hs).1 hq) (sequencerStep_of_calib hs ▸ h)

theorem cfgWrite_bitBudget_le {w : Width} {c c' : Cfg} {i : Instr} (h : CfgWrite w c i c')
    (hc : bitBudget c ≤ w.bits) : bitBudget c' ≤ w.bits := by
  cases h with
  | bitLength n hn => exact (Nat.mod_le _ _).trans hn
  | _ => exact hc

theorem commandEffect_inv {i : Instr} {s t : State} (hinv : Inv s) (hq : s.seq = .idle)
    (h : CommandEffect i s t) : Inv t := by
  obtain ⟨hd, -⟩ := inv_iff.1 hinv
  cases h with
  | answer st v => exact inv_of_idle (dataInv_respond.2 hd) hq
  | configure hc => exact inv_of_idle (dataInv_respond.2 (hd.configured (cfgWrite_bitBudget_le hc hd.bitLength_le))) hq
  | fill hv => exact inv_of_idle (dataInv_respond.2 (hd.filled hv)) hq
  | store idx hv => exact inv_of_idle (dataInv_respond.2 (hd.written hv)) hq
  | replace hi hpos hle hx => exact inv_of_idle (dataInv_respond.2 (hd.replaced hpos hle hx)) hq
  | commit hi => exact startCommit_inv hd trivial
  | autosense hi => exact inv_setSeq_calib.2 ⟨hd, trivial⟩

theorem present_inv_of_idle {txn : Transaction} {s t : State} (hinv : Inv s) (hq : s.seq = .idle)
    (h : present txn s = .next t) : Inv t := by
  rcases present_eq_next_of_idle hq h with ⟨i, heffect⟩ | rfl
  · exact commandEffect_inv hinv hq heffect
  · exact inv_of_idle (dataInv_respond.2 (inv_iff.1 hinv).1) hq

theorem setInbox_inv {s : State} (h : Inv s) (rest : List Request) : Inv (setInbox s rest) := { h with }

theorem hostOverlap_inv {s : State} (h : Inv s) : Inv (hostOverlap s) := { h with }

theorem step_inv {s t : State} (hinv : Inv s) (h : step s = .next t) : Inv t := by
  obtain ⟨-, ⟨rest, hseq⟩ | ⟨hq, r, rest, -, hp⟩ | ⟨-, txn, rest, -, rfl⟩⟩ := step_eq_next h
  · exact sequencerStep_inv (setInbox_inv hinv rest) hseq
  · exact present_inv_of_idle (setInbox_inv hinv rest) hq hp
  · exact hostOverlap_inv (setInbox_inv hinv rest)

/-- Settles O17: the sequencer's rows keep it one by one, and so do the effects of a command and the overlap. -/
theorem everyStepKeepsTheInvariant : Obligations.EveryStepKeepsTheInvariant :=
  fun _ _ => step_inv

end Sys2Proof.Machine

/-! # Liveness (R30, R59, R191, R230): a command in flight ends -/

namespace Sys2Proof.Machine

/-! ## Under the invariant the sequencer always has a step -/

theorem cmNext_progress {s : State} {cur : Cursor} {ret : Ret} (hd : DataInv s) (hk : cur.k ≤ s.length) :
    ∃ t, cmNext cur ret s = .next t := by
  unfold cmNext
  split_ifs with hend
  · exact ⟨_, rfl⟩
  · have hlt : cur.k < (order s.cfg s.length).length := by
      rw [order_length]; exact lt_of_le_of_ne hk fun h => hend (.inl h)
    obtain ⟨x, hx, -⟩ := memRead_of_lt hd.buf_wf (mem_order.1 (List.getElem_mem hlt))
    simp [List.getElem?_eq_getElem hlt, hx]

theorem asMark_progress {s : State} (hd : DataInv s) : ∃ t, asMark s = .next t := by
  have hlt : 0 < (order s.cfg s.length).length := by rw [order_length]; exact hd.length_pos
  simp [asMark, List.getElem?_eq_getElem hlt]

theorem sequencerStep_progress {s : State} (hinv : Inv s) : ∃ t, sequencerStep s = .next t := by
  obtain ⟨hd, hq⟩ := inv_iff.1 hinv
  cases hs : s.seq with
  | idle => exact ⟨s, sequencerStep_of_idle hs⟩
  | commit sub cur ret =>
    obtain ⟨hc, -⟩ := (seqInv_of_commit hs).1 hq
    rw [sequencerStep_of_commit hs]
    cases sub
    case next => exact cmNext_progress hd hc.1
    all_goals exact ⟨_, rfl⟩
  | calib sub =>
    rw [sequencerStep_of_calib hs]
    cases sub
    case mark => exact asMark_progress hd
    all_goals exact ⟨_, rfl⟩

/-! ## The work left of a command in flight -/

/-- What is left at a commit sub-state: the elements still to visit, and then the rows of the element at hand. Entering
the traversal counts as two elements more, and the rows after it as no element. -/
def commitWork (sub : CommitSub) (cur : Cursor) (w : Width) (len : Nat) : Nat ×ₗ Nat :=
  match sub with
  | .latchLo => toLex (len + 2, 0)
  | .clockLo => toLex (len + 1, 0)
  | .next => toLex (len - cur.k, 3 * w.bits + 4)
  | .data => toLex (len - cur.k, 3 * (w.bits - cur.i) + 3)
  | .clkHi => toLex (len - cur.k, 3 * (w.bits - cur.i) + 2)
  | .clkLo => toLex (len - cur.k, 3 * (w.bits - cur.i) + 1)
  | .latchHi => toLex (0, 2)
  | .latchIdle => toLex (0, 1)
  | .done => toLex (0, 0)

/-- What is left at a calibrator sub-state: the commits still to start, and then the rows up to the next one's start. -/
def calibWork (sub : CalibSub) (p : Params) (c : Cal) : Nat ×ₗ Nat :=
  match sub with
  | .input => toLex (p.flushCommits + p.maxBankCount, 7)
  | .zero => toLex (p.flushCommits + p.maxBankCount, 6)
  | .flush => toLex (p.flushCommits - c.flush + p.maxBankCount, 5)
  | .flushDelay => toLex (p.flushCommits - (c.flush + 1) + p.maxBankCount, 6)
  | .mark => toLex (p.maxBankCount, 4)
  | .loop => toLex (p.maxBankCount - c.bank, 0)
  | .clear => toLex (p.maxBankCount - c.bank, 3)
  | .settle => toLex (p.maxBankCount - c.bank, 2)
  | .sample => toLex (p.maxBankCount - c.bank, 1)

/-- What is left of the calibrator while one of its commits runs: one row more than at the sub-state it returns to. -/
def retWork (ret : Ret) (p : Params) (c : Cal) : Nat ×ₗ Nat :=
  match ret with
  | .idle => toLex (0, 0)
  | .flushDelay => toLex (p.flushCommits - (c.flush + 1) + p.maxBankCount, 7)
  | .clear => toLex (p.maxBankCount - c.bank, 4)

/-- The work left of the command in flight: the calibrator's, and then the running commit's. -/
def workLeft (s : State) : (Nat ×ₗ Nat) ×ₗ (Nat ×ₗ Nat) :=
  match s.seq with
  | .idle => toLex (toLex (0, 0), toLex (0, 0))
  | .commit sub cur ret => toLex (retWork ret s.params s.cal, commitWork sub cur s.params.width s.length)
  | .calib sub => toLex (calibWork sub s.params s.cal, toLex (0, 0))

/-- `t` is one step on from `s` in the command in flight: less work is left and there is no response yet, or the command
has ended with its one response, whose status is OK. -/
def Advances (s t : State) : Prop :=
  (t.seq ≠ .idle ∧ t.responses = s.responses ∧ workLeft t < workLeft s) ∨
  (t.seq = .idle ∧ ∃ v, t.responses = s.responses ++ [⟨.ok, v⟩])

/-! ## Every row advances -/

section CommitRows

variable {s : State} {cur cur' : Cursor} {ret : Ret} {sub sub' : CommitSub}

/-- A row that stays in the commit advances when less of the commit is left. -/
theorem advances_in_commit {u : State} (hs : s.seq = .commit sub cur ret) (hp : u.params = s.params)
    (hc : u.cal = s.cal) (hl : u.length = s.length) (hr : u.responses = s.responses)
    (hlt : commitWork sub' cur' s.params.width s.length < commitWork sub cur s.params.width s.length) :
    Advances s (setSeq u (.commit sub' cur' ret)) := by
  refine .inl ⟨by simp, by simpa using hr, ?_⟩
  simpa [workLeft, hs, hp, hc, hl, Prod.Lex.toLex_lt_toLex] using hlt

theorem cmNext_advances {t : State} (hs : s.seq = .commit .next cur ret) (h : cmNext cur ret s = .next t) :
    Advances s t := by
  rcases cmNext_eq_next h with rfl | ⟨e, x, -, -, -, rfl⟩
  · refine advances_in_commit hs rfl rfl rfl rfl ?_
    simp [commitWork, Prod.Lex.toLex_lt_toLex]; omega
  · refine advances_in_commit hs rfl rfl rfl rfl ?_
    simp [commitWork, Prod.Lex.toLex_lt_toLex]

theorem cmData_advances (hs : s.seq = .commit .data cur ret) (hc : commitInv .data cur s) :
    Advances s (cmData cur ret s) := by
  have hlt := atElement_lt hc.1
  unfold cmData
  split_ifs
  · refine advances_in_commit hs rfl rfl rfl rfl ?_
    simp [commitWork, Prod.Lex.toLex_lt_toLex]; omega
  · refine advances_in_commit hs rfl rfl rfl rfl ?_
    simp [commitWork, Prod.Lex.toLex_lt_toLex]

theorem cmClkLo_advances (hd : DataInv s) (hs : s.seq = .commit .clkLo cur ret) (hc : commitInv .clkLo cur s) :
    Advances s (cmClkLo cur ret s) := by
  have hlt := atElement_lt hc.1
  have hi := hc.2.trans_le hd.bitLength_le
  unfold cmClkLo
  split_ifs
  all_goals
    refine advances_in_commit hs rfl rfl rfl rfl ?_
    simp [commitWork, Prod.Lex.toLex_lt_toLex]; omega

theorem cmLatchHi_advances (hs : s.seq = .commit .latchHi cur ret) : Advances s (cmLatchHi cur ret s) := by
  unfold cmLatchHi
  split
  all_goals
    refine advances_in_commit hs rfl rfl rfl rfl ?_
    simp [commitWork, Prod.Lex.toLex_lt_toLex]

theorem cmDone_advances (hs : s.seq = .commit .done cur ret) : Advances s (cmDone ret s) := by
  cases ret with
  | idle => exact .inr ⟨rfl, _, rfl⟩
  | flushDelay =>
    exact .inl ⟨by simp [cmDone, Ret.target], rfl,
      by simp [workLeft, hs, cmDone, Ret.target, retWork, calibWork, Prod.Lex.toLex_lt_toLex]⟩
  | clear =>
    exact .inl ⟨by simp [cmDone, Ret.target], rfl,
      by simp [workLeft, hs, cmDone, Ret.target, retWork, calibWork, Prod.Lex.toLex_lt_toLex]⟩

theorem commitStep_advances {t : State} (hd : DataInv s) (hs : s.seq = .commit sub cur ret)
    (hc : commitInv sub cur s) (h : commitStep sub cur ret s = .next t) : Advances s t := by
  cases sub
  case next => exact cmNext_advances hs h
  all_goals cases h
  case data => exact cmData_advances hs hc
  case clkLo => exact cmClkLo_advances hd hs hc
  case latchHi => exact cmLatchHi_advances hs
  case done => exact cmDone_advances hs
  all_goals
    refine advances_in_commit hs rfl rfl rfl rfl ?_
    simp [commitWork, Prod.Lex.toLex_lt_toLex]

end CommitRows

section CalibratorRows

variable {s : State} {sub : CalibSub}

/-- A row that stays outside the commits advances when less of the calibrator is left. -/
theorem advances_in_calib {u : State} {sub' : CalibSub} (hs : s.seq = .calib sub) (hr : u.responses = s.responses)
    (hlt : calibWork sub' u.params u.cal < calibWork sub s.params s.cal) :
    Advances s (setSeq u (.calib sub')) :=
  .inl ⟨by simp, hr, by simpa [workLeft, hs, Prod.Lex.toLex_lt_toLex] using hlt⟩

/-- A commit of the calibrator is one commit less to start. -/
theorem advances_to_commit {u : State} {ret : Ret} (hs : s.seq = .calib sub) (hr : u.responses = s.responses)
    (hlt : retWork ret u.params u.cal < calibWork sub s.params s.cal) : Advances s (startCommit u ret) :=
  .inl ⟨by simp [startCommit], hr, by simpa [startCommit, workLeft, hs, Prod.Lex.toLex_lt_toLex] using .inl hlt⟩

theorem asFlush_advances (hd : DataInv s) (hs : s.seq = .calib .flush) : Advances s (asFlush s) := by
  have hle := hd.flush_le
  unfold asFlush
  split_ifs with h
  · exact advances_in_calib hs rfl (by simp [calibWork, Prod.Lex.toLex_lt_toLex, h])
  · exact advances_to_commit hs rfl (by simp [calibWork, retWork, Prod.Lex.toLex_lt_toLex]; omega)

theorem asMark_advances {t : State} (hs : s.seq = .calib .mark) (h : asMark s = .next t) : Advances s t := by
  obtain ⟨-, rfl⟩ := asMark_eq_next h
  exact advances_in_calib hs rfl (by simp [calibWork, Prod.Lex.toLex_lt_toLex])

theorem asLoop_advances (hs : s.seq = .calib .loop) (hc : calibInv .loop s) : Advances s (asLoop s) := by
  have hlt : s.cal.bank < s.params.maxBankCount := hc.2.1
  exact advances_to_commit hs rfl (by simp [calibWork, retWork, Prod.Lex.toLex_lt_toLex]; omega)

theorem asSample_advances (hs : s.seq = .calib .sample) : Advances s (asSample s) := by
  unfold asSample
  split_ifs
  · exact .inr ⟨rfl, _, by simp; rfl⟩
  · exact advances_in_calib hs (by simp) (by simp [calibWork, Prod.Lex.toLex_lt_toLex])

theorem calibStep_advances {t : State} (hd : DataInv s) (hs : s.seq = .calib sub) (hc : calibInv sub s)
    (h : calibStep sub s = .next t) : Advances s t := by
  cases sub
  case mark => exact asMark_advances hs h
  all_goals cases h
  case flush => exact asFlush_advances hd hs
  case loop => exact asLoop_advances hs hc
  case sample => exact asSample_advances hs
  all_goals exact advances_in_calib hs rfl (by simp [calibWork, Prod.Lex.toLex_lt_toLex])

end CalibratorRows

theorem sequencerStep_advances {s t : State} (hinv : Inv s) (hbusy : s.seq ≠ .idle)
    (h : sequencerStep s = .next t) : Advances s t := by
  obtain ⟨hd, hq⟩ := inv_iff.1 hinv
  cases hs : s.seq with
  | idle => exact absurd hs hbusy
  | commit sub cur ret =>
    obtain ⟨hc, -⟩ := (seqInv_of_commit hs).1 hq
    exact commitStep_advances hd hs hc (sequencerStep_of_commit hs ▸ h)
  | calib sub => exact calibStep_advances hd hs ((seqInv_of_calib hs).1 hq) (sequencerStep_of_calib hs ▸ h)

/-! ## The command ends -/

theorem stepN_succ_of_step {s t : State} (h : step s = .next t) (n : Nat) : stepN (n + 1) s = stepN n t := by
  simp [stepN, h]

theorem hostWaits_congr {s t : State} (h : t.inbox = s.inbox) : hostWaits t = hostWaits s := by
  simp [hostWaits, h]

/-- Settles O20, by induction on the work left: the sequencer has a step under the invariant, which the step keeps, and
each step either leaves less work or ends the command. -/
theorem everyCommandInFlightEnds : Obligations.EveryCommandInFlightEnds := by
  intro s
  induction hwork : workLeft s using WellFoundedLT.induction generalizing s with
  | ind work ih =>
    intro hinv hf hbusy hwaits
    subst hwork
    obtain ⟨t, hseq⟩ := sequencerStep_progress hinv
    have hstep : step s = .next t := (step_of_waiting hf hbusy hwaits).trans hseq
    obtain ⟨-, hfault, hinbox, -, -⟩ := sequencerStep_frame hseq
    rcases sequencerStep_advances hinv hbusy hseq with ⟨hbusy', hresp, hlt⟩ | ⟨hidle, v, hresp⟩
    · obtain ⟨n, u, v, hrun, hready, hinbox', hresp'⟩ :=
        ih _ hlt t rfl (step_inv hinv hstep) (hfault.trans hf) hbusy' ((hostWaits_congr hinbox).trans hwaits)
      exact ⟨n + 1, u, v, (stepN_succ_of_step hstep n).trans hrun, hready, hinbox'.trans hinbox, hresp ▸ hresp'⟩
    · exact ⟨1, t, v, stepN_succ_of_step hstep 0, ⟨hidle, hfault.trans hf⟩, hinbox, hresp⟩

end Sys2Proof.Machine

/-! # The fault mark, the writers, the events and reset (spec/10_state.md R21 to R37) -/

namespace Sys2Proof.Machine

/-! ## The fault mark (R35, R62, R257) -/

theorem exec_of_busy {s : State} (i : Instr) (hf : s.faulted = false) (hq : s.seq ≠ .idle) :
    exec i s = .next (hostOverlap s) := by
  obtain ⟨run, hexec, -⟩ := exec_eq_accept_effect i
  rw [hexec, accept_of_busy hf hq]

theorem exec_of_faulted {s : State} (i : Instr) (hf : s.faulted = true) : exec i s = .fault .hostOverlap := by
  obtain ⟨run, hexec, -⟩ := exec_eq_accept_effect i
  rw [hexec, accept_of_faulted hf]

/-- Settles O12: every command is an acceptance, which only marks a busy block, and a marked block stops. -/
theorem commandInFlightMarksHostOverlap : Obligations.CommandInFlightMarksHostOverlap :=
  fun _ i hf hq => ⟨exec_of_busy i hf hq, step_of_faulted rfl⟩

/-- A busy block whose next request is due is presented it, whatever it decodes to. -/
theorem step_of_overlap {s : State} {txn : Transaction} {rest : List Request} (hf : s.faulted = false)
    (hq : s.seq ≠ .idle) (hi : s.inbox = ⟨txn, some 0⟩ :: rest) :
    step s = .next (hostOverlap (setInbox s rest)) := by
  obtain ⟨run, hpresent⟩ := present_eq_accept txn
  have hoverlap : present txn (setInbox s rest) = .next (hostOverlap (setInbox s rest)) :=
    (hpresent _).trans (accept_of_busy (s := setInbox s rest) hf hq)
  cases hs : s.seq <;> simp_all [step, blockStep, runningStep, busyStep]

theorem commandEffect_faulted {i : Instr} {s t : State} (h : CommandEffect i s t) : t.faulted = s.faulted := by
  cases h <;> rfl

theorem present_faulted_of_idle {txn : Transaction} {s t : State} (hq : s.seq = .idle)
    (h : present txn s = .next t) : t.faulted = s.faulted := by
  rcases present_eq_next_of_idle hq h with ⟨i, heffect⟩ | rfl
  · exact commandEffect_faulted heffect
  · rfl

theorem step_faulted_iff {s t : State} (h : step s = .next t) :
    t.faulted = true ↔ s.seq ≠ .idle ∧ ∃ txn rest, s.inbox = ⟨txn, some 0⟩ :: rest := by
  obtain ⟨hf, hcases⟩ := step_eq_next h
  constructor
  · intro ht
    rcases hcases with ⟨rest, hseq⟩ | ⟨hq, r, rest, -, hp⟩ | ⟨hq, txn, rest, hi, -⟩
    · obtain ⟨-, hkeep, -⟩ := sequencerStep_frame hseq
      simp_all
    · have hkeep := present_faulted_of_idle (s := setInbox s rest) hq hp
      simp_all
    · exact ⟨hq, txn, rest, hi⟩
  · rintro ⟨hq, txn, rest, hi⟩
    cases (step_of_overlap hf hq hi).symm.trans h
    rfl

/-- Settles O14: of the three things a step can be, only the overlap writes the mark. -/
theorem faultMarkIsSetOnlyByOverlap : Obligations.FaultMarkIsSetOnlyByOverlap :=
  ⟨fun _ i hf => ⟨step_of_faulted hf, exec_of_faulted i hf⟩,
    fun _ _ h => ⟨(step_eq_next h).1, step_faulted_iff h⟩⟩

/-! ## The writers of the configuration and of `length` (R21 to R26) -/

theorem exec_cfg {i : Instr} {s t : State} (h : exec i s = .next t) :
    t.cfg = s.cfg ∨ CfgWrite s.params.width s.cfg i t.cfg := by
  rcases exec_eq_next h with ⟨-, heffect⟩ | ⟨-, rfl⟩
  · cases heffect with
    | configure hc => exact .inr hc
    | _ => exact .inl rfl
  · exact .inl rfl

theorem exec_length {i : Instr} {s t : State} (h : exec i s = .next t) : t.length = s.length ∨ Replaces i := by
  rcases exec_eq_next h with ⟨-, heffect⟩ | ⟨-, rfl⟩
  · cases heffect with
    | replace hi => exact .inr hi
    | _ => exact .inl rfl
  · exact .inl rfl

/-- Settles O21: a command writes no field, or the one field of its own row in `CfgWrite`. -/
theorem eachConfigurationFieldHasItsWriters : Obligations.EachConfigurationFieldHasItsWriters := by
  intro s t i h
  have hlength : t.length ≠ s.length → Replaces i := (exec_length h).resolve_left
  rcases exec_cfg h with hc | hc
  · simpa [hc, Replaces] using hlength
  · generalize t.cfg = c at hc ⊢
    cases hc <;> simpa [Replaces] using hlength

/-! ## Events and pins (R31, R32, R189, R262) -/

/-- A step from `s` to `t` emits nothing, or the block is busy and emits one event; the pins follow the event. -/
def EmitsAtMostOne (s t : State) : Prop :=
  (t.trace = s.trace ∧ t.pins = s.pins) ∨
  (s.seq ≠ .idle ∧ ∃ e, t.trace = s.trace ++ [e] ∧ t.pins = s.pins.after e)

theorem commitStep_emits {sub : CommitSub} {cur : Cursor} {ret : Ret} {s t : State} (hq : s.seq ≠ .idle)
    (h : commitStep sub cur ret s = .next t) : EmitsAtMostOne s t := by
  cases sub
  case next => rcases cmNext_eq_next h with rfl | ⟨e, x, -, -, -, rfl⟩ <;> exact .inl ⟨rfl, rfl⟩
  all_goals cases h
  case data =>
    unfold cmData
    split_ifs
    · exact .inl ⟨rfl, rfl⟩
    · exact .inr ⟨hq, _, rfl, rfl⟩
  case clkLo => unfold cmClkLo; split_ifs <;> exact .inr ⟨hq, _, rfl, rfl⟩
  case done => cases ret <;> exact .inl ⟨rfl, rfl⟩
  all_goals exact .inr ⟨hq, _, rfl, rfl⟩

theorem calibStep_emits {sub : CalibSub} {s t : State} (hq : s.seq ≠ .idle)
    (h : calibStep sub s = .next t) : EmitsAtMostOne s t := by
  cases sub
  case mark => obtain ⟨-, rfl⟩ := asMark_eq_next h; exact .inl ⟨rfl, rfl⟩
  all_goals cases h
  case zero | loop | clear => exact .inl ⟨rfl, rfl⟩
  case flush => unfold asFlush; split_ifs <;> exact .inl ⟨rfl, rfl⟩
  case sample =>
    refine .inr ⟨hq, .readLevel (senseLevel s), ?_⟩
    unfold asSample
    split_ifs <;> simp
  all_goals exact .inr ⟨hq, _, rfl, rfl⟩

theorem sequencerStep_emits {s t : State} (h : sequencerStep s = .next t) : EmitsAtMostOne s t := by
  cases hs : s.seq with
  | idle =>
    cases (sequencerStep_of_idle hs).symm.trans h
    exact .inl ⟨rfl, rfl⟩
  | commit sub cur ret => exact commitStep_emits (by simp [hs]) (sequencerStep_of_commit hs ▸ h)
  | calib sub => exact calibStep_emits (by simp [hs]) (sequencerStep_of_calib hs ▸ h)

theorem step_emits {s t : State} (h : step s = .next t) : EmitsAtMostOne s t := by
  obtain ⟨-, ⟨rest, hseq⟩ | ⟨-, r, rest, -, hp⟩ | ⟨-, txn, rest, -, rfl⟩⟩ := step_eq_next h
  · exact sequencerStep_emits (s := setInbox s rest) hseq
  · have hframe := present_frame hp
    exact .inl ⟨hframe.trace, hframe.pins⟩
  · exact .inl ⟨rfl, rfl⟩

/-- No event makes the sense line an output (R32). -/
theorem after_senseInput {p : Pins} (e : Event) (h : p.senseInput = true) : (p.after e).senseInput = true := by
  cases e with
  | writeLevel q l => cases q <;> exact h
  | setInputMode => rfl
  | readLevel l => exact h
  | delay ms => exact h

/-- Settles O24: each row of the sequencer emits at most once, and presenting a transaction emits nothing. -/
theorem eachStepEmitsAtMostOneEvent : Obligations.EachStepEmitsAtMostOneEvent := by
  intro s t h
  refine ⟨step_emits h, fun hsense => ?_⟩
  rcases step_emits h with ⟨-, hpins⟩ | ⟨-, e, -, hpins⟩
  · rw [hpins]; exact hsense
  · rw [hpins]; exact after_senseInput e hsense

/-! ## Reset (R37, R280) -/

/-- Settles O15: the fields of `State.resetWith`; `bitLength` is `W` because every width fits its 7 bits. -/
theorem resetPutsEveryElementAtItsValue : Obligations.ResetPutsEveryElementAtItsValue :=
  fun p => ⟨rfl, rfl, rfl, rfl, bitBudget_resetWith p, rfl, rfl, rfl, rfl, rfl, rfl, rfl, rfl, rfl, rfl⟩

end Sys2Proof.Machine

/-! # Memory (spec/20_memory.md): what one step is, and what each command does to the buffer -/

namespace Sys2Proof.Machine

/-! ## What one step is (R59, R60, R62) -/

/-- The decoder's reading of a table word is its reading of the transaction that carries the word. -/
theorem decodeTableWord_eq_some {nbits w : Nat} {i : Instr} :
    decodeTableWord nbits w = some i ↔ decode (tableTransaction nbits w) = .ok i := by
  unfold decodeTableWord
  split <;> simp [*]

/-- A ready block runs the command its next transaction decodes to. -/
theorem step_of_presented {s : State} {r : Request} {rest : List Request} {i : Instr} (hready : Ready s)
    (hi : s.inbox = r :: rest) (hd : decode r.txn = .ok i) : step s = exec i (setInbox s rest) :=
  (step_of_ready hready hi).trans (present_of_decode hd _)

/-- Settles O10: a ready block presents the head of its inbox, and `withFetchWord` builds a ready block. -/
theorem stepRunsThePresentedCommand : Obligations.StepRunsThePresentedCommand := by
  constructor
  · rintro s t rest i ⟨hready, early, hinbox⟩ hd
    exact step_of_presented hready hinbox hd
  · intro s nbits w i hd
    have hready : Ready (s.withFetchWord nbits w) := ⟨rfl, rfl⟩
    exact step_of_presented hready rfl (decodeTableWord_eq_some.1 hd)

theorem step_of_nothing_presented {s : State} (hf : s.faulted = false) (hi : s.inbox = []) :
    step s = sequencerStep s := by
  simp [step, blockStep, runningStep, hf, hi]

/-- Settles O11: a waiting host leaves the step to the sequencer, whose idle row keeps the state. -/
theorem sequencerStepsWhileTheHostWaits : Obligations.SequencerStepsWhileTheHostWaits := by
  refine ⟨fun s sub cur ret hf hs hw => ?_, fun s sub hf hs hw => ?_, fun s hready hi => ?_⟩
  · exact (step_of_waiting hf (by simp [hs]) hw).trans (sequencerStep_of_commit hs)
  · exact (step_of_waiting hf (by simp [hs]) hw).trans (sequencerStep_of_calib hs)
  · exact (step_of_nothing_presented hready.2 hi).trans (sequencerStep_of_idle hready.1)

/-- A request that is not due yet comes one step nearer, and the sequencer steps. -/
theorem step_of_not_due {s : State} {txn : Transaction} {n : Nat} {rest : List Request} (hf : s.faulted = false)
    (hq : s.seq ≠ .idle) (hi : s.inbox = ⟨txn, some (n + 1)⟩ :: rest) :
    step s = sequencerStep (setInbox s (⟨txn, some n⟩ :: rest)) := by
  cases hs : s.seq with
  | idle => exact absurd hs hq
  | commit sub cur ret => simp [step, blockStep, runningStep, busyStep, hf, hi, hs]
  | calib sub => simp [step, blockStep, runningStep, busyStep, hf, hi, hs]

/-- Settles O13: a due request is the overlap, and any other only comes nearer. -/
theorem earlyTransactionMarksHostOverlap : Obligations.EarlyTransactionMarksHostOverlap :=
  fun _ _ _ _ hf hq => ⟨step_of_overlap hf hq, step_of_not_due hf hq⟩

/-! ## What reads see (R50, R51) -/

/-- A read depends on `length` and the buffer alone. -/
theorem memRead_congr {s t : State} (hl : t.length = s.length) (hb : t.buf = s.buf) (a : Nat) :
    memRead t a = memRead s a := by
  simp [memRead, hl, hb]

@[simp] theorem memRead_respond (s : State) (st : Status) (v : BitVec 64) (a : Nat) :
    memRead (respond s st v) a = memRead s a := rfl

@[simp] theorem memRead_raise (s : State) (st : Status) (a : Nat) : memRead (raise s st) a = memRead s a := rfl

theorem memRead_of_le {s : State} {a : Nat} (h : s.length ≤ a) : memRead s a = none := by
  simp [memRead, not_lt.2 h]

/-! ## What a command leaves unchanged (R58) -/

/-- What a command can answer as a next state, from the state function of its arm. -/
theorem exec_eq_next_of_run {i : Instr} {run : State → State} {s t : State} (hrun : ∀ s, exec i s = accept s run)
    (h : exec i s = .next t) : (s.seq = .idle ∧ t = run s) ∨ (s.seq ≠ .idle ∧ t = hostOverlap s) := by
  rcases accept_eq_next.1 (hrun s ▸ h) with ⟨hready, ht⟩ | ⟨-, hbusy, ht⟩
  · exact .inl ⟨hready.1, ht⟩
  · exact .inr ⟨hbusy, ht⟩

theorem exec_eq_run_of_ready {i : Instr} {run : State → State} {s : State} (hrun : ∀ s, exec i s = accept s run)
    (hready : Ready s) : exec i s = .next (run s) :=
  (hrun s).trans (accept_of_ready hready)

/-- The commands that can store elements in the buffer (R58). -/
def Stores : Instr → Prop
  | .resize _ | .fill _ | .clear | .setall | .write _ _ | .overwrite _ _ => True
  | _ => False

theorem exec_eq_accept_buf {i : Instr} (hi : ¬Stores i) :
    ∃ run : State → State, (∀ s, exec i s = accept s run) ∧ ∀ s, (run s).buf = s.buf := by
  cases i
  case resize | fill | clear | setall | write | overwrite => exact absurd trivial hi
  all_goals refine ⟨_, fun _ => rfl, fun s => ?_⟩
  case setbitlen n => split_ifs <;> rfl
  case read idx => split <;> rfl
  all_goals rfl

theorem exec_buf {i : Instr} {s t : State} (hi : ¬Stores i) (h : exec i s = .next t) : t.buf = s.buf := by
  obtain ⟨run, hrun, hbuf⟩ := exec_eq_accept_buf hi
  rcases exec_eq_next_of_run hrun h with ⟨-, rfl⟩ | ⟨-, rfl⟩
  · exact hbuf s
  · rfl

theorem exec_seq {i : Instr} {s t : State} (h : exec i s = .next t) :
    t.seq = s.seq ∨ i = .commit ∨ i = .autosense := by
  rcases exec_eq_next h with ⟨-, heffect⟩ | ⟨-, rfl⟩
  · cases heffect with
    | commit hi => exact .inr (.inl hi)
    | autosense hi => exact .inr (.inr hi)
    | _ => exact .inl rfl
  · exact .inl rfl

theorem exec_faulted_of_idle {i : Instr} {s t : State} (hq : s.seq = .idle) (h : exec i s = .next t) :
    t.faulted = s.faulted := by
  rcases exec_eq_next h with ⟨-, heffect⟩ | ⟨hbusy, -⟩
  · exact commandEffect_faulted heffect
  · exact absurd hq hbusy

theorem exec_keepsPorts {i : Instr} {s t : State} (h : exec i s = .next t) : keepsPorts s t := by
  have hframe := exec_frame h
  exact ⟨hframe.params, hframe.bitCounter, hframe.pins, hframe.cal, hframe.inbox, hframe.senseIn,
    hframe.senseDraws, hframe.trace, fun hq => exec_faulted_of_idle hq h⟩

/-- A command that stores nothing leaves the memory as it was, to the block and to every read. -/
theorem exec_memory {i : Instr} {s t : State} (hi : ¬Stores i) (h : exec i s = .next t) :
    t.length = s.length ∧ t.buf = s.buf ∧ ∀ a, memRead t a = memRead s a := by
  have hreplaces : ¬Replaces i := by
    rintro (⟨n, rfl⟩ | ⟨n, ds, rfl⟩) <;> exact hi trivial
  have hl := (exec_length h).resolve_right hreplaces
  have hb := exec_buf hi h
  exact ⟨hl, hb, memRead_congr hl hb⟩

/-- Settles O42: none of these commands stores an element or starts the sequencer, and GETCFG and READ are no setters. -/
theorem registerCommandsFrame : Obligations.RegisterCommandsFrame := by
  intro s t i h hi
  have hstores : ¬Stores i := by
    rcases hi with ⟨_, rfl⟩ | ⟨_, rfl⟩ | ⟨_, rfl⟩ | ⟨_, rfl⟩ | ⟨_, rfl⟩ | ⟨_, rfl⟩ | ⟨_, rfl⟩ <;> exact not_false
  have hengine : ¬(i = .commit ∨ i = .autosense) := by
    rintro (rfl | rfl) <;> simp at hi
  obtain ⟨hl, hb, hr⟩ := exec_memory hstores h
  refine ⟨exec_keepsPorts h, (exec_seq h).resolve_right hengine, hl, hb, hr, fun hread => ?_⟩
  rcases hread with ⟨_, rfl⟩ | ⟨_, rfl⟩ <;> exact (exec_cfg h).resolve_right nofun

/-! ## The commands that store (R131 to R134) -/

/-- Everything FILL, CLEAR and SETALL can answer as a next state. -/
theorem exec_fills_eq_next {i : Instr} {s t : State} (hi : (∃ d, i = .fill d) ∨ i = .clear ∨ i = .setall)
    (h : exec i s = .next t) : (∃ v, t = respond (memFill s v) .ok 0#64) ∨ t = hostOverlap s := by
  rcases hi with ⟨_, rfl⟩ | rfl | rfl
  all_goals
    rcases exec_eq_next_of_run (fun _ => rfl) h with ⟨-, rfl⟩ | ⟨-, rfl⟩
    · exact .inl ⟨_, rfl⟩
    · exact .inr rfl

/-- Everything WRITE can answer as a next state. -/
theorem exec_write_eq_next {idx : BitVec 24} {d : DataWord} {s t : State} (h : exec (.write idx d) s = .next t) :
    t = raise s .indexError ∨
    t = respond (memWrite s (uOperand idx) (dataOperand s.params.width d)) .ok 0#64 ∨ t = hostOverlap s := by
  rcases exec_eq_next_of_run (fun _ => rfl) h with ⟨-, rfl⟩ | ⟨-, rfl⟩
  · split_ifs
    · exact .inl rfl
    · exact .inr (.inl rfl)
  · exact .inr (.inr rfl)

/-- Settles O43: the answers of WRITE and of the three fills are listed, and the rest is every command's frame. -/
theorem bufferCommandsFrame : Obligations.BufferCommandsFrame := by
  refine ⟨fun s t i h hi => ⟨exec_keepsPorts h, (exec_seq h).resolve_right ?_, (exec_cfg h).resolve_right ?_⟩,
    fun s t idx d h => ?_, fun s t i h hi => ?_⟩
  · rintro (rfl | rfl) <;> simp at hi
  · rcases hi with ⟨_, rfl⟩ | ⟨_, rfl⟩ | rfl | rfl | ⟨_, _, rfl⟩ | ⟨_, _, rfl⟩ <;> exact nofun
  · rcases exec_write_eq_next h with rfl | rfl | rfl
    · exact ⟨rfl, fun _ _ => rfl⟩
    · exact ⟨rfl, fun _ ha => memRead_memWrite_other (s := s) ha⟩
    · exact ⟨rfl, fun _ _ => rfl⟩
  · rcases exec_fills_eq_next hi h with ⟨v, rfl⟩ | rfl
    · refine ⟨rfl, fun a ha => ?_⟩
      rw [memRead_of_le ha]
      exact memRead_of_le ha
    · exact ⟨rfl, fun _ _ => rfl⟩

/-! ## COMMIT and AUTOSENSE (R58, R64) -/

/-- Everything COMMIT and AUTOSENSE can answer as a next state. -/
theorem exec_engine_eq_next {i : Instr} {s t : State} (hi : i = .commit ∨ i = .autosense)
    (h : exec i s = .next t) :
    t = setSeq s (if i = .commit then .commit .latchLo Cursor.start .idle else .calib .input) ∨
    (s.seq ≠ .idle ∧ t = hostOverlap s) := by
  rcases hi with rfl | rfl
  all_goals
    rcases exec_eq_next_of_run (fun _ => rfl) h with ⟨-, rfl⟩ | ⟨hbusy, rfl⟩
    · exact .inl rfl
    · exact .inr ⟨hbusy, rfl⟩

/-- Settles O44: the acceptance sets `seq` alone, and the overlap of a busy block sets the mark alone. -/
theorem engineCommandsStartFrame : Obligations.EngineCommandsStartFrame := by
  intro s t i h hi
  have hstores : ¬Stores i := by rcases hi with rfl | rfl <;> exact not_false
  obtain ⟨hl, hb, hr⟩ := exec_memory hstores h
  have hports := exec_keepsPorts h
  rcases exec_engine_eq_next hi h with rfl | ⟨hbusy, rfl⟩
  · exact ⟨hports, rfl, hl, hb, rfl, hr, fun _ => rfl⟩
  · exact ⟨hports, rfl, hl, hb, rfl, hr, fun hready => absurd hready.1 hbusy⟩

/-- No row of R189 writes the buffer. -/
theorem commitStep_buf {sub : CommitSub} {cur : Cursor} {ret : Ret} {s t : State}
    (h : commitStep sub cur ret s = .next t) : t.buf = s.buf := by
  cases sub
  case next => rcases cmNext_eq_next h with rfl | ⟨e, x, -, -, -, rfl⟩ <;> rfl
  all_goals cases h
  case data => unfold cmData; split_ifs <;> rfl
  case clkLo => unfold cmClkLo; split_ifs <;> rfl
  case done => cases ret <;> rfl
  all_goals rfl

/-- A step in a COMMIT sub-state is a row of R189 or an overlap, and neither writes the memory. -/
theorem step_memory_of_commit {sub : CommitSub} {cur : Cursor} {ret : Ret} {s t : State}
    (hs : s.seq = .commit sub cur ret) (h : step s = .next t) : t.length = s.length ∧ t.buf = s.buf := by
  obtain ⟨-, ⟨rest, hseq⟩ | ⟨hidle, -⟩ | ⟨-, txn, rest, -, rfl⟩⟩ := step_eq_next h
  · obtain ⟨-, -, -, -, hl⟩ := sequencerStep_frame hseq
    rw [sequencerStep_of_commit (s := setInbox s rest) hs] at hseq
    exact ⟨hl, commitStep_buf (s := setInbox s rest) hseq⟩
  · simp [hs] at hidle
  · exact ⟨rfl, rfl⟩

/-- Settles O23: COMMIT stores nothing when it is accepted, and its rows write no element. -/
theorem commitNeverWritesTheBuffer : Obligations.CommitNeverWritesTheBuffer := by
  refine ⟨fun s t h => (exec_memory (i := .commit) not_false h).2, fun s t sub cur ret hs h => ?_⟩
  obtain ⟨hl, hb⟩ := step_memory_of_commit hs h
  exact ⟨hb, memRead_congr hl hb⟩

/-! ## Idempotence (R58) -/

@[simp] theorem respond_block (s : State) (st : Status) (v : BitVec 64) : (respond s st v).block = s.block := rfl

@[simp] theorem raise_block (s : State) (st : Status) : (raise s st).block = s.block := rfl

/-- A command that answers a next state of an idle block leaves it idle and unmarked, unless it starts the sequencer. -/
theorem exec_ready {i : Instr} {s t : State} (hready : Ready s) (hi : ¬(i = .commit ∨ i = .autosense))
    (h : exec i s = .next t) : Ready t :=
  ⟨((exec_seq h).resolve_right hi).trans hready.1, (exec_faulted_of_idle hready.1 h).trans hready.2⟩

/-- The arm of each command that does not start the sequencer, run twice, leaves the record of R20 as it was after
running once: what it checks is not what it writes, and what it writes does not depend on what was there before. -/
theorem exec_eq_accept_idempotent {i : Instr} (hi : ¬(i = .commit ∨ i = .autosense)) :
    ∃ run : State → State, (∀ s, exec i s = accept s run) ∧ ∀ s, (run (run s)).block = (run s).block := by
  cases i
  case commit | autosense => simp at hi
  all_goals refine ⟨_, fun _ => rfl, fun s => ?_⟩
  case setbitlen n => by_cases hn : s.params.width.bits < uOperand n <;> simp [hn, State.block]
  case resize n =>
    by_cases h0 : uOperand n = 0
    · simp [h0]
    · by_cases hn : s.params.maxLen < uOperand n <;> simp [h0, hn, State.block]
  case write idx d =>
    by_cases hidx : s.length ≤ uOperand idx
    · simp [hidx]
    · simp [hidx, State.block]
  case read idx => cases hx : memRead s (uOperand idx) <;> simp [hx]
  case overwrite n ds =>
    by_cases hl : ds.length = uOperand n
    · by_cases h0 : uOperand n = 0
      · simp [hl, h0]
      · by_cases hn : s.params.maxLen < uOperand n <;> simp [hl, h0, hn, State.block]
    · simp [hl]
  all_goals rfl

/-- Settles O27: the second run finds a ready block again, and the arm run twice leaves the record as once. -/
theorem commandsAreIdempotent : Obligations.CommandsAreIdempotent := by
  intro s i hready hcommit hautosense
  have hi : ¬(i = .commit ∨ i = .autosense) := by simp [hcommit, hautosense]
  obtain ⟨run, hrun, hblock⟩ := exec_eq_accept_idempotent hi
  have hfirst := exec_eq_run_of_ready hrun hready
  have hsecond := exec_eq_run_of_ready hrun (exec_ready hready hi hfirst)
  exact ⟨_, _, hfirst, hsecond, hblock s, (exec_frame hsecond).trace.trans (exec_frame hfirst).trace⟩

/-! ## A READ after a WRITE (R134, R135) -/

/-- What READ responds when the buffer reads `x` at its operand (R135). -/
def readResponse (x : Option Elem) : Response :=
  match x with
  | none => ⟨.indexError, 0#64⟩
  | some x => ⟨.ok, elemValue x⟩

theorem exec_read_of_ready {s : State} (hready : Ready s) (idx : BitVec 24) :
    ∃ t, exec (.read idx) s = .next t ∧
      t.responses = s.responses ++ [readResponse (memRead s (uOperand idx))] := by
  refine ⟨_, exec_eq_run_of_ready (fun _ => rfl) hready, ?_⟩
  cases memRead s (uOperand idx) <;> rfl

theorem exec_write_of_lt {s : State} {idx : BitVec 24} (hready : Ready s) (hidx : uOperand idx < s.length)
    (d : DataWord) : exec (.write idx d) s =
      .next (respond (memWrite s (uOperand idx) (dataOperand s.params.width d)) .ok 0#64) :=
  (exec_eq_run_of_ready (fun _ => rfl) hready).trans (by rw [if_neg (not_le.2 hidx)])

/-- Settles O41: the READ answers with what it reads in the buffer the WRITE has left. -/
theorem readAfterWrite : Obligations.ReadAfterWrite := by
  intro s idx j d hready hwf hidx
  have hlen : s.buf.length = s.length := (wf_iff.1 hwf).1
  obtain ⟨u, hread, hresp⟩ := exec_read_of_ready
    (s := respond (memWrite s (uOperand idx) (dataOperand s.params.width d)) .ok 0#64) hready j
  refine ⟨_, u, exec_write_of_lt hready hidx d, hread, fun hj => ?_, fun hj x hx => ?_, fun hj => ?_⟩
  all_goals rw [hresp, memRead_respond]
  · rw [hj, memRead_memWrite_same (idx := uOperand idx) hidx (hlen ▸ hidx)]; rfl
  · have hne : uOperand j ≠ uOperand idx := fun h => hj (BitVec.eq_of_toNat_eq h)
    have hlt : j.toNat < s.length := hlen ▸ (List.getElem?_eq_some_iff.1 hx).1
    rw [memRead_memWrite_other hne, (memRead_eq_some (idx := uOperand j)).2 ⟨hlt, hx⟩]; rfl
  · rw [memRead_of_le (s := memWrite s _ _) (a := uOperand j) hj]; rfl

end Sys2Proof.Machine

/-! # Encoding (spec/30_encoding.md R71 to R80): the opcode table and the two directions of the round trip -/

namespace Sys2Proof

/-! ## The opcode table, row by row (R72, R73, R80) -/

/-- How many low bits of ARG a row leaves to its operand (R72): one in the B format, all in the U format, two in the S
format, none in the N format. The bits above are zero in every word of the row. -/
def Opcode.freeBits : Opcode → Nat
  | .setproto | .setorder | .setmode | .setonesc => 1
  | .setbitlen | .resize | .write | .read | .overwrite => 24
  | .fill | .clear | .setall | .commit | .autosense => 0
  | .getcfg => 2

/-- The table's row of a mnemonic, built from its OP field and its format. -/
def Opcode.row (op : Opcode) : OpRow :=
  ⟨op, commandWord op.field 0#24, BitVec.allOnes 32 <<< op.freeBits⟩

theorem eq_row_of_mem {r : OpRow} (h : r ∈ opcodeRows) : r = r.op.row := by
  revert r; decide

/-- The table lists its rows by OP, from 1 up. -/
theorem getElem?_opcodeRows (op : Opcode) : opcodeRows[op.field.toNat - 1]? = some op.row := by
  cases op <;> rfl

theorem row_mem (op : Opcode) : op.row ∈ opcodeRows := List.mem_of_getElem? (getElem?_opcodeRows op)

theorem field_inj {op op' : Opcode} (h : op.field = op'.field) : op = op' := by
  have hrow : some op.row = some op'.row := by rw [← getElem?_opcodeRows, h, getElem?_opcodeRows]
  exact congrArg OpRow.op (Option.some.inj hrow)

theorem freeBits_le (op : Opcode) : op.freeBits ≤ 24 := by cases op <;> decide

theorem toNat_commandWord (op : BitVec 4) (arg : BitVec 24) :
    (commandWord op arg).toNat = 2 ^ 28 * op.toNat + arg.toNat := by
  change (op ++ 0#4 ++ arg : BitVec (4 + 4 + 24)).toNat = _
  rw [BitVec.toNat_append, BitVec.toNat_append, ← Nat.shiftLeft_add_eq_or_of_lt arg.isLt]
  simp [Nat.shiftLeft_eq]
  omega

/-- Masking by a row's format subtracts the operand bits. -/
theorem toNat_and_allOnes_shiftLeft (cw : CmdWord) (k : Nat) :
    (cw &&& BitVec.allOnes 32 <<< k).toNat = cw.toNat - cw.toNat % 2 ^ k := by
  have hle := Nat.sub_le cw.toNat (cw.toNat % 2 ^ k)
  rw [← BitVec.shiftLeft_ushiftRight, BitVec.toNat_shiftLeft, BitVec.toNat_ushiftRight, Nat.shiftLeft_eq,
    Nat.shiftRight_eq_div_pow, Nat.div_mul_self_eq_mod_sub_self, Nat.mod_eq_of_lt (hle.trans_lt cw.isLt)]

theorem row_hits_iff_toNat {op : Opcode} {cw : CmdWord} :
    op.row.hits cw = true ↔ cw.toNat - cw.toNat % 2 ^ op.freeBits = 2 ^ 28 * op.field.toNat := by
  rw [← toNat_and_allOnes_shiftLeft]
  simp only [OpRow.hits, Opcode.row, beq_iff_eq, ← BitVec.toNat_inj, toNat_commandWord, BitVec.toNat_ofNat,
    Nat.zero_mod, Nat.add_zero]

/-- A row matches exactly the words of its OP, with RSV zero and an ARG its format admits. -/
theorem row_hits_iff {op : Opcode} {cw : CmdWord} :
    op.row.hits cw = true ↔ ∃ arg : BitVec 24, cw = commandWord op.field arg ∧ arg.toNat < 2 ^ op.freeBits := by
  rw [row_hits_iff_toNat]
  constructor
  · intro h
    have hlow : cw.toNat % 2 ^ op.freeBits < 2 ^ op.freeBits := Nat.mod_lt _ (Nat.two_pow_pos _)
    have hle : 2 ^ op.freeBits ≤ 2 ^ 24 := Nat.pow_le_pow_right (by decide) (freeBits_le op)
    have hsub := Nat.mod_le cw.toNat (2 ^ op.freeBits)
    refine ⟨BitVec.ofNat 24 (cw.toNat % 2 ^ op.freeBits), BitVec.eq_of_toNat_eq ?_, ?_⟩
    all_goals simp only [toNat_commandWord, BitVec.toNat_ofNat, Nat.mod_eq_of_lt (hlow.trans_le hle)]
    · omega
    · exact hlow
  · rintro ⟨arg, rfl, harg⟩
    have hdvd : 2 ^ op.freeBits ∣ 2 ^ 28 * op.field.toNat :=
      (Nat.pow_dvd_pow 2 ((freeBits_le op).trans (by decide))).mul_right _
    rw [toNat_commandWord, Nat.add_mod, Nat.mod_eq_zero_of_dvd hdvd, Nat.zero_add, Nat.mod_mod,
      Nat.mod_eq_of_lt harg, Nat.add_sub_cancel]

/-- Settles O4: a row is determined by its OP field, which the words it matches carry. -/
theorem opcodeRowsNeverOverlap : Obligations.OpcodeRowsNeverOverlap := by
  intro r₁ r₂ cw h₁ h₂ hit₁ hit₂
  rw [eq_row_of_mem h₁] at hit₁ ⊢
  rw [eq_row_of_mem h₂] at hit₂ ⊢
  obtain ⟨arg₁, hcw₁, -⟩ := row_hits_iff.1 hit₁
  obtain ⟨arg₂, hcw₂, -⟩ := row_hits_iff.1 hit₂
  have hfield : r₁.op.field = r₂.op.field := by
    rw [← opField_commandWord r₁.op.field arg₁, ← hcw₁, hcw₂, opField_commandWord]
  rw [field_inj hfield]

/-! ## Decoding as reading operands (R80) -/

theorem decode_of_hits {op : Opcode} {t : Transaction} (h : op.row.hits t.cw = true) :
    decode t = operands op t.cw t.data := by
  unfold decode
  cases hfind : opcodeRows.find? (fun r => r.hits t.cw) with
  | none => exact absurd h (List.find?_eq_none.1 hfind _ (row_mem op))
  | some r =>
    have hit : r.hits t.cw = true := by simpa using List.find?_some hfind
    rw [opcodeRowsNeverOverlap r op.row t.cw (List.mem_of_find?_eq_some hfind) (row_mem op) hit h]
    rfl

theorem hits_of_decode {t : Transaction} {i : Instr} (h : decode t = .ok i) :
    ∃ op : Opcode, op.row.hits t.cw = true ∧ operands op t.cw t.data = .ok i := by
  unfold decode at h
  split at h
  next r hfind =>
    have hit : r.hits t.cw = true := by simpa using List.find?_some hfind
    exact ⟨r.op, eq_row_of_mem (List.mem_of_find?_eq_some hfind) ▸ hit, h⟩
  next => cases h

/-! ## The word a command is written as (R71 to R76) -/

/-- The ARG field a command is written with (R72). -/
def Instr.arg : Instr → BitVec 24
  | .setproto p => argOfBit p.toBit
  | .setorder o => argOfBit o.toBit
  | .setmode m => argOfBit m.toBit
  | .setonesc b => argOfBit b
  | .setbitlen n | .resize n | .overwrite n _ => n
  | .write idx _ | .read idx => idx
  | .fill _ | .clear | .setall | .commit | .autosense => 0#24
  | .getcfg sel => argOfSel sel

theorem encode_eq (i : Instr) : encode i = ⟨commandWord i.opcode.field i.arg, i.dataWords⟩ := by
  cases i <;> rfl

theorem argOfBit_lt (b : Bool) : (argOfBit b).toNat < 2 ^ 1 := by cases b <;> decide

theorem argOfSel_lt (sel : CfgSel) : (argOfSel sel).toNat < 2 ^ 2 := by cases sel <;> decide

theorem arg_lt (i : Instr) : i.arg.toNat < 2 ^ i.opcode.freeBits := by
  cases i
  case setproto | setorder | setmode | setonesc => exact argOfBit_lt _
  case setbitlen | resize | write | read | overwrite => exact BitVec.isLt _
  case fill | clear | setall | commit | autosense => exact Nat.one_pos
  case getcfg => exact argOfSel_lt _

theorem encode_hits (i : Instr) : i.opcode.row.hits (encode i).cw = true :=
  row_hits_iff.2 ⟨i.arg, by rw [encode_eq], arg_lt i⟩

theorem encodedFields (i : Instr) : Laws.EncodedFields.Statement i := by
  refine Laws.EncodedFields.of_fields (congrArg Transaction.cw (encode_eq i)) rfl fun h => ?_
  rw [encode_eq]
  cases i
  case overwrite n ds => exact beq_iff_eq.1 h
  all_goals rfl

/-! ### One-bit fields and the selector -/

@[simp] theorem Protocol.ofBit_toBit (p : Protocol) : Protocol.ofBit p.toBit = p := by cases p <;> rfl
@[simp] theorem Protocol.toBit_ofBit (b : Bool) : (Protocol.ofBit b).toBit = b := by cases b <;> rfl
@[simp] theorem BitOrder.ofBit_toBit (o : BitOrder) : BitOrder.ofBit o.toBit = o := by cases o <;> rfl
@[simp] theorem BitOrder.toBit_ofBit (b : Bool) : (BitOrder.ofBit b).toBit = b := by cases b <;> rfl
@[simp] theorem LenMode.ofBit_toBit (m : LenMode) : LenMode.ofBit m.toBit = m := by cases m <;> rfl
@[simp] theorem LenMode.toBit_ofBit (b : Bool) : (LenMode.ofBit b).toBit = b := by cases b <;> rfl

theorem Protocol.toBit_eq (p : Protocol) : p.toBit = decide (p = .shiftSpi) := by cases p <;> rfl
theorem BitOrder.toBit_eq (o : BitOrder) : o.toBit = decide (o = .msbFirst) := by cases o <;> rfl
theorem LenMode.toBit_eq (m : LenMode) : m.toBit = decide (m = .each) := by cases m <;> rfl

@[simp] theorem getElem_zero_argOfBit (b : Bool) : (argOfBit b)[0] = b := by cases b <;> rfl

@[simp] theorem decodeSel_argOfSel (sel : CfgSel) : decodeSel ((argOfSel sel).extractLsb' 0 2) = .ok sel := by
  cases sel <;> rfl

theorem argOfBit_getElem_zero {arg : BitVec 24} (h : arg.toNat < 2 ^ 1) : argOfBit arg[0] = arg := by
  obtain rfl | rfl : arg = 0#24 ∨ arg = 1#24 := by bv_omega
  all_goals rfl

theorem argOfSel_of_decodeSel {arg : BitVec 24} {sel : CfgSel} (h : arg.toNat < 2 ^ 2)
    (hsel : decodeSel (arg.extractLsb' 0 2) = .ok sel) : argOfSel sel = arg := by
  obtain rfl | rfl | rfl | rfl : arg = 0#24 ∨ arg = 1#24 ∨ arg = 2#24 ∨ arg = 3#24 := by bv_omega
  all_goals cases hsel
  all_goals rfl

@[simp] theorem getElem_zero_commandWord (op : BitVec 4) (arg : BitVec 24) :
    (commandWord op arg)[0] = arg[0] := by
  simp [← BitVec.getLsbD_eq_getElem, getLsbD_commandWord]

@[simp] theorem selector_commandWord (op : BitVec 4) (arg : BitVec 24) :
    (commandWord op arg).extractLsb' 0 2 = arg.extractLsb' 0 2 := by
  apply BitVec.eq_of_getLsbD_eq
  intro k hk
  simp [getLsbD_commandWord, hk, show k < 24 by omega]

/-! ## The two directions of the round trip -/

theorem operands_encode {i : Instr} (h : i.wellFormed = true) :
    operands i.opcode (encode i).cw (encode i).data = .ok i := by
  rw [encode_eq]
  cases i
  case overwrite n ds =>
    have hcount : ds.length = n.toNat := by simpa [Instr.wellFormed] using h
    simp [Instr.opcode, Instr.arg, Instr.dataWords, operands, argField_commandWord, hcount]
  all_goals simp [Instr.opcode, Instr.arg, Instr.dataWords, operands, noData, oneData, argField_commandWord]

/-- Settles O2: the word a command is written as hits the row of its opcode, which reads the operands back. -/
theorem decodeOfEncodeIsTheCommand : Obligations.DecodeOfEncodeIsTheCommand :=
  fun i h => (decode_of_hits (encode_hits i)).trans (operands_encode h)

theorem noData_eq_ok {data : List DataWord} {i j : Instr} : noData data i = .ok j ↔ data = [] ∧ i = j := by
  cases data <;> simp [noData]

theorem oneData_eq_ok {data : List DataWord} {f : DataWord → Instr} {j : Instr} :
    oneData data f = .ok j ↔ ∃ d, data = [d] ∧ f d = j := by
  unfold oneData
  split <;> simp_all

/-- The operands a row reads are written back to the same word and data, whatever the format. -/
theorem encode_of_operands {op : Opcode} {arg : BitVec 24} {data : List DataWord} {i : Instr}
    (harg : arg.toNat < 2 ^ op.freeBits) (h : operands op (commandWord op.field arg) data = .ok i) :
    encode i = ⟨commandWord op.field arg, data⟩ ∧ i.wellFormed = true := by
  cases op
  all_goals simp only [operands, noData_eq_ok, oneData_eq_ok, argField_commandWord, selector_commandWord] at h
  case setproto | setorder | setmode | setonesc =>
    obtain ⟨rfl, rfl⟩ := h
    simp [encode, Instr.wellFormed, Opcode.field, argOfBit_getElem_zero harg]
  case setbitlen | resize | read =>
    obtain ⟨rfl, rfl⟩ := h
    exact ⟨rfl, rfl⟩
  case fill =>
    obtain ⟨d, rfl, rfl⟩ := h
    obtain rfl : arg = 0#24 := BitVec.eq_of_toNat_eq (Nat.lt_one_iff.1 harg)
    exact ⟨rfl, rfl⟩
  case write =>
    obtain ⟨d, rfl, rfl⟩ := h
    exact ⟨rfl, rfl⟩
  case clear | setall | commit | autosense =>
    obtain ⟨rfl, rfl⟩ := h
    obtain rfl : arg = 0#24 := BitVec.eq_of_toNat_eq (Nat.lt_one_iff.1 harg)
    exact ⟨rfl, rfl⟩
  case overwrite =>
    split_ifs at h with hcount
    cases h
    exact ⟨rfl, beq_iff_eq.2 hcount⟩
  case getcfg =>
    split at h
    next sel hsel =>
      obtain ⟨rfl, rfl⟩ := noData_eq_ok.1 h
      simp [encode, Instr.wellFormed, Opcode.field, argOfSel_of_decodeSel harg hsel]
    next => cases h

/-- Settles O3: the row that matches fixes every bit of the word but the operand's, and the operand is read back. -/
theorem decodedTransactionIsItsEncoding : Obligations.DecodedTransactionIsItsEncoding := by
  rintro ⟨cw, data⟩ i h
  obtain ⟨op, hit, hop⟩ := hits_of_decode h
  obtain ⟨arg, rfl, harg⟩ := row_hits_iff.1 hit
  exact encode_of_operands harg hop

end Sys2Proof

/-! # Encoding and responses (spec/30_encoding.md R70 to R85): IllegalCommand at the step, and what commands answer -/

namespace Sys2Proof.Machine

/-! ## IllegalCommand at the step (R70, R72, R77 to R79, R250) -/

theorem step_of_illegal {s : State} {t : Transaction} {rest : List Request} {r : Illegal}
    (hp : Presented s t rest) (hd : decode t = .error r) :
    step s = .next (responded (setInbox s rest) .illegalCommand 0#64) := by
  obtain ⟨hready, early, hinbox⟩ := hp
  calc step s = present t (setInbox s rest) := step_of_ready hready hinbox
    _ = illegalCommand (setInbox s rest) := present_of_illegal hd _
    _ = .next (raise (setInbox s rest) .illegalCommand) := accept_of_ready (s := setInbox s rest) hready

/-- A ready block answers IllegalCommand to every transaction that no well-formed command is written as. -/
theorem step_of_not_encoded {s : State} {t : Transaction} {rest : List Request} (hp : Presented s t rest)
    (h : ∀ i : Instr, i.wellFormed = true → encode i ≠ t) :
    step s = .next (responded (setInbox s rest) .illegalCommand 0#64) := by
  cases hd : decode t with
  | ok i =>
    obtain ⟨henc, hwf⟩ := decodedTransactionIsItsEncoding t i hd
    exact absurd henc (h i hwf)
  | error r => exact step_of_illegal hp hd

/-- Settles O5: the encoder leaves RSV zero. -/
theorem reservedFieldRaisesIllegalCommand : Obligations.ReservedFieldRaisesIllegalCommand := by
  intro s t rest hp hrsv
  refine step_of_not_encoded hp fun i _ henc => hrsv ?_
  obtain ⟨-, hzero, -⟩ := encodedFields i
  exact henc ▸ hzero

theorem field_ne_zero (op : Opcode) : op.field ≠ 0#4 := by cases op <;> decide

/-- Settles O6: no row of the opcode table has OP 0. -/
theorem opcodeZeroRaisesIllegalCommand : Obligations.OpcodeZeroRaisesIllegalCommand := by
  intro s t rest hp hop
  refine step_of_not_encoded hp fun i _ henc => field_ne_zero i.opcode ?_
  obtain ⟨hfield, -, -⟩ := encodedFields i
  rw [← hfield, henc]
  exact hop

/-- Settles O7: the GETCFG row matches the word, and its selector is none. -/
theorem selectorThreeRaisesIllegalCommand : Obligations.SelectorThreeRaisesIllegalCommand := by
  intro s data rest hp
  have hit : Opcode.getcfg.row.hits 0xF0000003#32 = true := by decide
  have hd : decode ⟨0xF0000003#32, data⟩ = .error .selectorThree :=
    (decode_of_hits hit).trans (show operands .getcfg 0xF0000003#32 data = _ from rfl)
  exact step_of_illegal hp hd

/-- The ARG bits above the operand's are zero in the word of every command (R72). -/
theorem extractLsb'_encode {i : Instr} {k : Nat} (hk : i.opcode.freeBits = k) :
    (encode i).cw.extractLsb' k (24 - k) = 0#(24 - k) := by
  rw [encode_eq]
  apply BitVec.eq_of_getLsbD_eq
  intro j hj
  have hhigh : i.arg.getLsbD (k + j) = false :=
    Nat.testBit_lt_two_pow ((arg_lt i).trans_le (Nat.pow_le_pow_right (by decide) (by omega)))
  rw [BitVec.getLsbD_extractLsb', getLsbD_commandWord, if_pos (by omega), hhigh]
  simp

theorem freeBits_of_bitFormat {op : Opcode} (h : op.field ∈ [0x1#4, 0x2#4, 0x3#4, 0x4#4]) : op.freeBits = 1 := by
  revert h; cases op <;> decide

theorem freeBits_of_noOperandFormat {op : Opcode} (h : op.field ∈ [0x7#4, 0x8#4, 0x9#4, 0xD#4, 0xE#4]) :
    op.freeBits = 0 := by
  revert h; cases op <;> decide

theorem freeBits_of_selectorFormat {op : Opcode} (h : op.field = 0xF#4) : op.freeBits = 2 := by
  revert h; cases op <;> decide

/-- Settles O8: the OP field says the format, and every encoded word keeps the format's zero bits. -/
theorem mustBeZeroArgBitRaisesIllegalCommand : Obligations.MustBeZeroArgBitRaisesIllegalCommand := by
  intro s t rest hp hbits
  refine step_of_not_encoded hp fun i _ henc => ?_
  subst henc
  have hfield : (encode i).cw.extractLsb' 28 4 = i.opcode.field := (encodedFields i).1
  rw [hfield] at hbits
  rcases hbits with ⟨hop, hset⟩ | ⟨hop, hset⟩ | ⟨hop, hset⟩
  · exact hset (extractLsb'_encode (freeBits_of_bitFormat hop))
  · exact hset (extractLsb'_encode (freeBits_of_noOperandFormat hop))
  · exact hset (extractLsb'_encode (freeBits_of_selectorFormat hop))

/-- A well-formed command carries as many data words as its word says (R70, R75). -/
theorem length_dataWords {i : Instr} (h : i.wellFormed = true) :
    i.dataWords.length = i.opcode.dataCount (argField (encode i).cw) := by
  obtain ⟨-, -, hcount⟩ := encodedFields i
  rw [← hcount h, encode_eq]

/-- Settles O9: two well-formed commands with one command word have the opcode and the ARG in common, which give the
number of data words. -/
theorem wrongDataCountRaisesIllegalCommand : Obligations.WrongDataCountRaisesIllegalCommand := by
  intro s i data rest hp hi hlen
  refine step_of_not_encoded hp fun j hj henc => hlen ?_
  have hcw : (encode j).cw = (encode i).cw := by rw [henc]
  have hdata : j.dataWords = data := by rw [encode_eq j] at henc; exact congrArg Transaction.data henc
  have hop : j.opcode = i.opcode := by
    obtain ⟨hfieldj, -, -⟩ := encodedFields j
    obtain ⟨hfieldi, -, -⟩ := encodedFields i
    exact field_inj (by rw [← hfieldj, hcw, hfieldi])
  rw [← hdata, length_dataWords hj, length_dataWords hi, hcw, hop]

/-! ## Words written out (R71 to R76) -/

/-- Settles O1: each word is evaluated by the decoder. -/
theorem decodeReadsWrittenOutWords : Obligations.DecodeReadsWrittenOutWords :=
  ⟨rfl, rfl, rfl, rfl, rfl, rfl, rfl, rfl, rfl, rfl, rfl, rfl, rfl⟩

/-- A command word is its OP bits or'ed with its ARG (R71). -/
theorem commandWord_eq_or (op : BitVec 4) (arg : BitVec 24) :
    commandWord op arg = commandWord op 0#24 ||| arg.setWidth 32 := by
  apply BitVec.eq_of_getLsbD_eq
  intro k hk
  rw [BitVec.getLsbD_or, BitVec.getLsbD_setWidth, getLsbD_commandWord, getLsbD_commandWord]
  by_cases hlow : k < 24
  · simp [hk, hlow]
  · simp [hlow, BitVec.getLsbD_of_ge arg k (not_lt.1 hlow)]

theorem decode_or_arg {i : Instr} {op : Opcode} {cw : CmdWord} (hi : i.wellFormed = true) (hop : i.opcode = op)
    (hcw : commandWord op.field 0#24 = cw) : decode ⟨cw ||| i.arg.setWidth 32, i.dataWords⟩ = .ok i := by
  rw [← hcw, ← hop, ← commandWord_eq_or, ← encode_eq, decodeOfEncodeIsTheCommand i hi]

/-! ## What a ready block answers (R82, R250, R251) -/

/-- The arm of each command that does not start the sequencer gives one more response, of a status it can report. -/
theorem exec_eq_accept_responds {i : Instr} (hi : ¬(i = .commit ∨ i = .autosense)) :
    ∃ run : State → State, (∀ s, exec i s = accept s run) ∧
      ∀ s, ∃ r : Response, r.status ∈ canReport i ∧ (run s).responses = s.responses ++ [r] := by
  cases i
  case commit | autosense => simp at hi
  all_goals refine ⟨_, fun _ => rfl, fun s => ?_⟩
  case setbitlen | resize | write | overwrite => split_ifs <;> exact ⟨_, by simp [canReport], rfl⟩
  case read => split <;> exact ⟨_, by simp [canReport], rfl⟩
  all_goals exact ⟨_, List.mem_singleton_self _, rfl⟩

/-- Settles O25: the sequencer is started by COMMIT and AUTOSENSE alone, and every other arm responds once. -/
theorem everyCommandIsAnswered : Obligations.EveryCommandIsAnswered := by
  intro s i hready
  by_cases hi : i = .commit ∨ i = .autosense
  · obtain ⟨run, hrun⟩ := exec_eq_accept i
    have hexec := exec_eq_run_of_ready hrun hready
    refine ⟨run s, hexec, fun _ => ?_, fun hcommit hautosense => absurd hi (by simp [hcommit, hautosense])⟩
    rcases exec_engine_eq_next hi hexec with ht | ⟨hbusy, -⟩
    · rw [ht]
      exact ⟨by split_ifs <;> simp, rfl⟩
    · exact absurd hready.1 hbusy
  · obtain ⟨run, hrun, hresp⟩ := exec_eq_accept_responds hi
    have hexec := exec_eq_run_of_ready hrun hready
    exact ⟨run s, hexec, fun h => absurd h hi, fun _ _ => ⟨(exec_ready hready hi hexec).1, hresp s⟩⟩

/-! ## FILL, CLEAR and SETALL (R85, R131) -/

theorem accept_congr {s : State} {run run' : State → State} (h : run s = run' s) : accept s run = accept s run' := by
  unfold accept
  rw [h]

/-- The all-ones element is the data operand `2^W - 1`. -/
theorem dataOperand_ones (w : Width) : dataOperand w (BitVec.ofNat 64 (2 ^ w.bits - 1)) = elemOnes w := by
  cases w <;> rfl

/-- Settles O37: the data operand 0 is the element 0, and the data operand `2^W - 1` the all-ones element. -/
theorem clearAndSetallAreFills : Obligations.ClearAndSetallAreFills := by
  intro s
  have hzero : dataOperand s.params.width 0#64 = 0#64 := dataOperand_of_lt (zero_lt_width _)
  constructor
  · change execClear s = execFill 0#64 s
    refine accept_congr ?_
    rw [hzero]
  · change execSetall s = execFill (BitVec.ofNat 64 (2 ^ s.params.width.bits - 1)) s
    refine accept_congr ?_
    rw [dataOperand_ones]

/-- Settles O35: the arm of FILL, and the word the encoder writes for it. -/
theorem fillOverwritesEveryElement : Obligations.FillOverwritesEveryElement :=
  ⟨fun d => decodeOfEncodeIsTheCommand (.fill d) rfl,
    fun s d hready => show execFill d s = _ from accept_of_ready hready, fun _ _ => dataOperand_of_lt⟩

/-! ## READ and OVERWRITE (R135, R136) -/

/-- Settles O39: a valid index of a well-formed buffer reads, and no other does. -/
theorem readReturnsTheElement : Obligations.ReadReturnsTheElement := by
  refine ⟨fun idx => decode_or_arg (i := .read idx) (op := .read) rfl rfl (by decide),
    fun s idx hready hwf hidx => ?_, fun s idx hready hidx => ?_⟩
  all_goals rw [exec_eq_run_of_ready (fun _ => rfl) hready]
  · obtain ⟨x, hread, hx⟩ := memRead_of_lt hwf (idx := uOperand idx) hidx
    rw [hread]
    exact ⟨x, hx, (wf_iff.1 hwf).2 x (List.mem_of_getElem? hx), rfl⟩
  · rw [memRead_of_le (a := uOperand idx) hidx]
    rfl

/-- Settles O40: the checks of OVERWRITE in their order, and the buffer it leaves. -/
theorem overwriteReplacesLengthAndContents : Obligations.OverwriteReplacesLengthAndContents := by
  have hpos : ∀ {n : BitVec 24}, n ≠ 0#24 → uOperand n ≠ 0 := fun hn h => hn (BitVec.eq_of_toNat_eq h)
  refine ⟨fun n ds hcount =>
      decode_or_arg (i := .overwrite n ds) (op := .overwrite) (beq_iff_eq.2 hcount) rfl (by decide),
    fun s n ds hready (hcount : ds.length ≠ uOperand n) => ?_, fun s hready => ?_,
    fun s n ds hready hn (hcount : ds.length = uOperand n) (hbig : s.params.maxLen < uOperand n) => ?_,
    fun s n ds hready hn (hcount : ds.length = uOperand n) (hfits : uOperand n ≤ s.params.maxLen) => ?_⟩
  all_goals rw [exec_eq_run_of_ready (fun _ => rfl) hready]
  · rw [if_pos hcount]; rfl
  · rfl
  · rw [if_neg (not_not.2 hcount), if_neg (hpos hn), if_pos hbig]; rfl
  · have hlength : (ds.map (dataOperand s.params.width)).length = n.toNat :=
      (List.length_map _).trans hcount
    rw [if_neg (not_not.2 hcount), if_neg (hpos hn), if_neg (not_lt.2 hfits), memReplace, hlength]; rfl

/-! ## GETCFG (R83, R105) -/

/-- The bits of the configuration word (R83). -/
theorem getLsbD_configWord (c : Cfg) (k : Nat) :
    (configWord c).getLsbD k =
      match k with
      | 0 => c.protocol.toBit
      | 1 => c.bitOrder.toBit
      | 2 => c.bitLengthMode.toBit
      | 3 => c.onesComplement
      | k + 4 => c.bitLength.getLsbD k := by
  change (0#53 ++ c.bitLength ++ bit c.onesComplement ++ bit c.bitLengthMode.toBit ++ bit c.bitOrder.toBit ++
    bit c.protocol.toBit : BitVec (53 + 7 + 1 + 1 + 1 + 1)).getLsbD k = _
  simp only [BitVec.getLsbD_append, bit, BitVec.getLsbD_ofBool]
  rcases k with _ | _ | _ | _ | k
  case succ.succ.succ.succ => simpa using BitVec.lt_of_getLsbD
  all_goals simp

theorem extractLsb'_configWord_bitLength (c : Cfg) : (configWord c).extractLsb' 4 7 = c.bitLength := by
  apply BitVec.eq_of_getLsbD_eq
  intro k hk
  rw [BitVec.getLsbD_extractLsb', Nat.add_comm, getLsbD_configWord]
  simp only [hk, decide_true, Bool.true_and]

theorem extractLsb'_configWord_high (c : Cfg) : (configWord c).extractLsb' 11 53 = 0#53 := by
  apply BitVec.eq_of_getLsbD_eq
  intro k hk
  rw [BitVec.getLsbD_extractLsb', show 11 + k = k + 7 + 4 by omega, getLsbD_configWord]
  simp

theorem exec_getcfg_of_ready {s : State} (sel : CfgSel) (hready : Ready s) :
    exec (.getcfg sel) s = .next (responded s .ok (cfgValue sel s)) :=
  show execGetcfg sel s = _ from accept_of_ready hready

/-- Settles O33: the fields of the configuration word, read at the bits the word puts them. -/
theorem getcfgReturnsTheConfiguration : Obligations.GetcfgReturnsTheConfiguration := by
  refine ⟨rfl, rfl, rfl, fun s hready => ⟨configWord s.cfg, exec_getcfg_of_ready .word hready, ?_⟩,
    fun s => exec_getcfg_of_ready .length, fun s => exec_getcfg_of_ready .width⟩
  exact ⟨(getLsbD_configWord _ 0).trans (Protocol.toBit_eq _), (getLsbD_configWord _ 1).trans (BitOrder.toBit_eq _),
    (getLsbD_configWord _ 2).trans (LenMode.toBit_eq _), getLsbD_configWord _ 3,
    extractLsb'_configWord_bitLength _, extractLsb'_configWord_high _⟩

/-! ## Status codes (R82) -/

/-- The statuses stand in the order of their codes. -/
theorem getElem?_code (st : Status) :
    [Status.ok, .configError, .allocError, .indexError, .illegalCommand][st.code.toNat]? = some st := by
  cases st <;> rfl

/-- Settles O60: the code is the status's position in the list of statuses. -/
theorem statusCodesAreDistinct : Obligations.StatusCodesAreDistinct := by
  refine ⟨rfl, rfl, rfl, rfl, rfl, fun st => ?_, fun st st' h => ?_⟩
  · obtain ⟨hlt, -⟩ := List.getElem?_eq_some_iff.1 (getElem?_code st)
    exact Nat.le_of_lt_succ hlt
  · have hsame : some st = some st' := by rw [← getElem?_code st, h, getElem?_code]
    exact Option.some.inj hsame

end Sys2Proof.Machine

/-! # Configuration (spec/40_configuration.md): the commands that write it, and that nothing in flight does -/

namespace Sys2Proof.Machine

/-! ## No step in flight writes the configuration (R106, R168, R232) -/

/-- Settles O22: in flight a step is the sequencer's, whose frame holds `cfg` and `length`, or only marks the overlap. -/
theorem configurationIsFixedInFlight : Obligations.ConfigurationIsFixedInFlight := by
  intro s t hbusy h
  obtain ⟨-, ⟨rest, hseq⟩ | ⟨hidle, -⟩ | ⟨-, txn, rest, -, rfl⟩⟩ := step_eq_next h
  · obtain ⟨-, -, -, hcfg, hlength⟩ := sequencerStep_frame hseq
    exact ⟨hcfg, hlength⟩
  · exact absurd hidle hbusy
  · exact ⟨rfl, rfl⟩

/-! ## The configuration commands in a ready block (R100 to R104) -/

/-- The converse of `exec_cfg`: a ready block makes the write its command asks for, answers OK and changes nothing
else. -/
theorem exec_of_cfgWrite {i : Instr} {s : State} {c : Cfg} (hready : Ready s)
    (hc : CfgWrite s.params.width s.cfg i c) : exec i s = .next (responded (setCfg s c) .ok 0#64) := by
  cases hc
  all_goals rw [exec_eq_run_of_ready (fun _ => rfl) hready]
  case bitLength n hn => rw [if_neg (not_lt.2 hn)]; rfl
  all_goals rfl

/-- Settles O28: the decoder reads `ARG[0]` as the field's code (R21), and the command makes the write of its row. -/
theorem setprotoWritesProtocol : Obligations.SetprotoWritesProtocol :=
  ⟨Bool.forall_bool.2 ⟨rfl, rfl⟩, fun _ p hready => exec_of_cfgWrite hready (.protocol p)⟩

/-- Settles O29: the decoder reads `ARG[0]` as the field's code (R22), and the command makes the write of its row. -/
theorem setorderWritesBitOrder : Obligations.SetorderWritesBitOrder :=
  ⟨Bool.forall_bool.2 ⟨rfl, rfl⟩, fun _ o hready => exec_of_cfgWrite hready (.bitOrder o)⟩

/-- Settles O30: the decoder reads `ARG[0]` as the field's code (R23), and the command makes the write of its row. -/
theorem setmodeWritesBitLengthMode : Obligations.SetmodeWritesBitLengthMode :=
  ⟨Bool.forall_bool.2 ⟨rfl, rfl⟩, fun _ m hready => exec_of_cfgWrite hready (.bitLengthMode m)⟩

/-- Settles O31: the decoder reads `ARG[0]` as the field itself (R25), and the command makes the write of its row. -/
theorem setonescWritesOnesComplement : Obligations.SetonescWritesOnesComplement :=
  ⟨Bool.forall_bool.2 ⟨rfl, rfl⟩, fun _ b hready => exec_of_cfgWrite hready (.onesComplement b)⟩

/-- A value up to `W` fits the 7-bit field of R24, so the field holds the value itself. -/
theorem toNat_bitLength {w : Width} {n : BitVec 24} (hn : uOperand n ≤ w.bits) :
    (BitVec.ofNat 7 (uOperand n)).toNat = uOperand n :=
  Nat.mod_eq_of_lt ((hn.trans (width_bits_le w)).trans_lt (by decide))

/-- A value above `W` is rejected, and nothing is written (R104, R252). -/
theorem exec_setbitlen_of_gt {s : State} {n : BitVec 24} (hready : Ready s)
    (hn : s.params.width.bits < uOperand n) : exec (.setbitlen n) s = .next (responded s .configError 0#64) := by
  rw [exec_eq_run_of_ready (fun _ => rfl) hready, if_pos hn]
  rfl

/-- Settles O32: up to `W` the value goes into the 7-bit field unchanged, and above `W` the command is rejected. -/
theorem setbitlenWritesOrRejects : Obligations.SetbitlenWritesOrRejects :=
  ⟨fun n => decode_or_arg (i := .setbitlen n) (op := .setbitlen) rfl rfl (by decide),
    fun _ n hready hn => ⟨BitVec.ofNat 7 (uOperand n), toNat_bitLength hn, exec_of_cfgWrite hready (.bitLength n hn)⟩,
    fun _ _ hready hn => exec_setbitlen_of_gt hready hn⟩

end Sys2Proof.Machine

/-! # Buffer manager (spec/41_buffer_manager.md): the commands that write the buffer, in a ready block -/

namespace Sys2Proof.Machine

/-! ## RESIZE (R130) -/

theorem uOperand_ne_zero {n : BitVec 24} (hn : n ≠ 0#24) : uOperand n ≠ 0 :=
  fun h => hn (BitVec.eq_of_toNat_eq h)

theorem exec_resize_of_gt {s : State} {n : BitVec 24} (hready : Ready s) (hn : n ≠ 0#24)
    (hbig : s.params.maxLen < uOperand n) : exec (.resize n) s = .next (responded s .allocError 0#64) := by
  rw [exec_eq_run_of_ready (fun _ => rfl) hready, if_neg (uOperand_ne_zero hn), if_pos hbig]
  rfl

/-- The new length is the count itself, because the fresh buffer holds exactly that many zeros. -/
theorem exec_resize_of_le {s : State} {n : BitVec 24} (hready : Ready s) (hn : n ≠ 0#24)
    (hfits : uOperand n ≤ s.params.maxLen) : exec (.resize n) s =
      .next (responded { s with length := uOperand n, buf := List.replicate (uOperand n) 0#64 } .ok 0#64) := by
  rw [exec_eq_run_of_ready (fun _ => rfl) hready, if_neg (uOperand_ne_zero hn), if_neg (not_lt.2 hfits), memReplace,
    List.length_replicate]
  rfl

/-- Settles O34: the checks of RESIZE in their order, and the buffer it leaves. -/
theorem resizeDiscardsAndAllocatesZeros : Obligations.ResizeDiscardsAndAllocatesZeros :=
  ⟨fun n => decode_or_arg (i := .resize n) (op := .resize) rfl rfl (by decide),
    fun s hready => show execResize 0#24 s = _ from accept_of_ready hready,
    fun _ _ hready hn hbig => exec_resize_of_gt hready hn hbig,
    fun _ _ hready hn hfits => exec_resize_of_le hready hn hfits⟩

/-! ## CLEAR and SETALL (R132, R133) -/

/-- The all-ones element as a number (R133). -/
theorem elemOnes_eq_ofNat (w : Width) : elemOnes w = BitVec.ofNat 64 (2 ^ w.bits - 1) := by
  cases w <;> rfl

/-- Settles O36: each fills the buffer with its own element, and the all-ones element is `2^W - 1`. -/
theorem clearAndSetallFillTheBuffer : Obligations.ClearAndSetallFillTheBuffer := by
  refine ⟨rfl, rfl, fun s hready => show execClear s = _ from accept_of_ready hready, fun s hready => ?_⟩
  rw [← elemOnes_eq_ofNat]
  exact show execSetall s = _ from accept_of_ready hready

/-! ## WRITE (R134) -/

theorem exec_write_of_le {s : State} {idx : BitVec 24} (hready : Ready s) (hidx : s.length ≤ uOperand idx)
    (d : DataWord) : exec (.write idx d) s = .next (responded s .indexError 0#64) := by
  rw [exec_eq_run_of_ready (fun _ => rfl) hready, if_pos hidx]
  rfl

/-- Settles O38: an index below `length` is assigned, and any other is reported. -/
theorem writeAssignsOneElement : Obligations.WriteAssignsOneElement :=
  ⟨fun idx d => decode_or_arg (i := .write idx d) (op := .write) rfl rfl (by decide),
    fun _ _ d hready hidx => exec_write_of_lt hready hidx d,
    fun _ _ d hready hidx => exec_write_of_le hready hidx d⟩

end Sys2Proof.Machine

/-! # Bit policy (spec/42_bit_policy.md): the bits a commit sends, and in which order -/

namespace Sys2Proof.Machine

/-! ## The traversal order (R160) -/

section Traversal

variable {c : Cfg}

theorem order_of_lsbFirst (h : c.bitOrder = .lsbFirst) (len : Nat) : order c len = List.range len := by
  simp [order, h]

theorem order_of_msbFirst (h : c.bitOrder = .msbFirst) (len : Nat) : order c len = (List.range len).reverse := by
  simp [order, h]

/-- A non-empty traversal starts at its first slot. -/
theorem getElem?_zero_order {len : Nat} (hlen : 1 ≤ len) : (order c len)[0]? = some (firstSlot c len) := by
  have hpos : 0 < (order c len).length := by rwa [order_length]
  simp [firstSlot, List.headD_eq_head?_getD, List.head?_eq_getElem?, List.getElem?_eq_getElem hpos]

theorem getElem?_order_of_lsbFirst (h : c.bitOrder = .lsbFirst) {len k : Nat} (hk : k < len) :
    (order c len)[k]? = some k := by
  simp [order_of_lsbFirst h, hk]

theorem getElem?_order_of_msbFirst (h : c.bitOrder = .msbFirst) {len k : Nat} (hk : k < len) :
    (order c len)[k]? = some (len - 1 - k) := by
  rw [order_of_msbFirst h, List.getElem?_reverse (by simpa using hk), List.length_range, List.getElem?_range (by omega)]

theorem firstSlot_of_lsbFirst (h : c.bitOrder = .lsbFirst) {len : Nat} (hlen : 1 ≤ len) : firstSlot c len = 0 :=
  Option.some.inj ((getElem?_zero_order hlen).symm.trans (getElem?_order_of_lsbFirst h hlen))

theorem firstSlot_of_msbFirst (h : c.bitOrder = .msbFirst) {len : Nat} (hlen : 1 ≤ len) :
    firstSlot c len = len - 1 :=
  Option.some.inj ((getElem?_zero_order hlen).symm.trans (getElem?_order_of_msbFirst h hlen))

end Traversal

/-- Settles O45: each order position by position, and the first slot as the element at position 0. -/
theorem traversalFollowsBitOrder : Obligations.TraversalFollowsBitOrder := by
  refine fun c len k => ⟨order_length c len, fun hk h => getElem?_order_of_lsbFirst h hk,
    fun hk h => getElem?_order_of_msbFirst h hk, fun hlen => ?_⟩
  cases h : c.bitOrder with
  | lsbFirst => exact firstSlot_of_lsbFirst h hlen
  | msbFirst => exact firstSlot_of_msbFirst h hlen

/-! ## The bit index (R161) -/

theorem bitIndex_of_lsbFirst {c : Cfg} (h : c.bitOrder = .lsbFirst) (i : Nat) : bitIndex c i = i := by
  simp [bitIndex, h]

theorem bitIndex_of_msbFirst {c : Cfg} (h : c.bitOrder = .msbFirst) (i : Nat) :
    bitIndex c i = bitBudget c - 1 - i := by
  simp [bitIndex, h]

/-- Settles O46: below `B`, neither index of R161 leaves the low `B` bits. -/
theorem bitIndexFollowsBitOrder : Obligations.BitIndexFollowsBitOrder := by
  intro c i (hi : i < bitBudget c)
  have hmsb : c.bitOrder = .msbFirst → bitIndex c i + i + 1 = bitBudget c := fun h => by
    rw [bitIndex_of_msbFirst h]; omega
  refine ⟨fun h => bitIndex_of_lsbFirst h i, hmsb, show bitIndex c i < bitBudget c from ?_⟩
  cases h : c.bitOrder with
  | lsbFirst => rwa [bitIndex_of_lsbFirst h]
  | msbFirst => have := hmsb h; omega

/-! ## The transmitted value (R12, R163) -/

theorem getLsbD_elemNot (w : Width) (x : Elem) (k : Nat) :
    (elemNot w x).getLsbD k = (decide (k < w.bits) && !x.getLsbD k) := by
  have := width_bits_le w
  by_cases hk : k < w.bits
  · simp [elemNot, elemOf, elemBits, hk, show k < 64 by omega]
  · simp [elemNot, elemOf, elemBits, hk]

theorem tx_of_onesComplement {c : Cfg} (h : c.onesComplement = true) (w : Width) (x : Elem) :
    tx w c x = elemNot w x := if_pos h

theorem tx_of_not_onesComplement {c : Cfg} (h : c.onesComplement = false) (w : Width) (x : Elem) : tx w c x = x :=
  if_neg (by simp [h])

/-- Settles O47: ones-complement sends `~x` on `W` bits, and otherwise the element itself is sent. -/
theorem transmittedValueInvertsEachBit : Obligations.TransmittedValueInvertsEachBit :=
  fun w _ x k => ⟨fun h => by rw [tx_of_onesComplement h, getLsbD_elemNot], fun h => tx_of_not_onesComplement h w x⟩

/-- Below `W` no inversion loses a bit: two transmitted values agree there exactly where their elements do. -/
theorem getLsbD_tx_eq_iff {w : Width} {k : Nat} (hk : k < w.bits) (c : Cfg) (x y : Elem) :
    (tx w c x).getLsbD k = (tx w c y).getLsbD k ↔ x.getLsbD k = y.getLsbD k := by
  cases h : c.onesComplement with
  | false => rw [tx_of_not_onesComplement h, tx_of_not_onesComplement h]
  | true => simp [tx_of_onesComplement h, getLsbD_elemNot, hk]

/-! ## The bits of one element -/

/-- Bits 0 to `B-1` of the transmitted value, lowest first: what an element sends, in the order of LSB_FIRST. -/
def lowBits (w : Width) (c : Cfg) (x : Elem) : List Bool :=
  (List.range (bitBudget c)).map fun i => (tx w c x).getLsbD i

theorem elementBits_of_lsbFirst {c : Cfg} (h : c.bitOrder = .lsbFirst) (w : Width) (x : Elem) :
    elementBits w c x = lowBits w c x := by
  simp [elementBits, lowBits, txBit, bitIndex_of_lsbFirst h]

theorem elementBits_of_msbFirst {c : Cfg} (h : c.bitOrder = .msbFirst) (w : Width) (x : Elem) :
    elementBits w c x = (lowBits w c x).reverse := by
  refine List.ext_getElem (by simp [elementBits, lowBits]) fun k _ _ => ?_
  simp [elementBits, lowBits, txBit, bitIndex_of_msbFirst h]

@[simp] theorem length_elementBits (w : Width) (c : Cfg) (x : Elem) : (elementBits w c x).length = bitBudget c := by
  simp [elementBits]

theorem lowBits_eq_iff {w : Width} {c : Cfg} (hB : bitBudget c ≤ w.bits) (x y : Elem) :
    lowBits w c x = lowBits w c y ↔ ∀ i, i < bitBudget c → x.getLsbD i = y.getLsbD i := by
  simp only [lowBits, List.map_inj_left, List.mem_range]
  exact forall₂_congr fun i hi => getLsbD_tx_eq_iff (hi.trans_le hB) c x y

/-! ## The bits of a commit (R165) -/

@[simp] theorem length_visited (c : Cfg) (buf : List Elem) : (visited c buf).length = buf.length := by
  simp [visited]

/-- Reading a buffer at every index in turn gives the buffer. -/
theorem map_getD_range_length (buf : List Elem) : (List.range buf.length).map (fun e => buf.getD e 0#64) = buf := by
  refine List.ext_getElem (by simp) fun k _ hk => ?_
  simp [hk]

theorem visited_of_lsbFirst {c : Cfg} (h : c.bitOrder = .lsbFirst) (buf : List Elem) : visited c buf = buf := by
  rw [visited, order_of_lsbFirst h, map_getD_range_length]

theorem visited_of_msbFirst {c : Cfg} (h : c.bitOrder = .msbFirst) (buf : List Elem) :
    visited c buf = buf.reverse := by
  rw [visited, order_of_msbFirst h, List.map_reverse, map_getD_range_length]

theorem bits_of_each {c : Cfg} (h : c.bitLengthMode = .each) (w : Width) (buf : List Elem) :
    bits w c buf = (visited c buf).flatMap (elementBits w c) := by
  simp [bits, h]

theorem bits_of_overall {c : Cfg} (h : c.bitLengthMode = .overall) (w : Width) {buf : List Elem} (hbuf : buf ≠ []) :
    bits w c buf = elementBits w c (buf.getD (firstSlot c buf.length) 0#64) := by
  obtain ⟨rest, horder⟩ : ∃ rest, order c buf.length = firstSlot c buf.length :: rest := by
    rw [← List.head?_eq_some_iff, List.head?_eq_getElem?]
    exact getElem?_zero_order (List.length_pos_iff.2 hbuf)
  simp [bits, h, visited, horder]

theorem bits_of_each_lsbFirst {c : Cfg} (hm : c.bitLengthMode = .each) (ho : c.bitOrder = .lsbFirst) (w : Width)
    (buf : List Elem) : bits w c buf = buf.flatMap (lowBits w c) := by
  rw [bits_of_each hm, visited_of_lsbFirst ho, funext (elementBits_of_lsbFirst ho w)]

theorem bits_of_each_msbFirst {c : Cfg} (hm : c.bitLengthMode = .each) (ho : c.bitOrder = .msbFirst) (w : Width)
    (buf : List Elem) : bits w c buf = (buf.flatMap (lowBits w c)).reverse := by
  rw [bits_of_each hm, visited_of_msbFirst ho, funext (elementBits_of_msbFirst ho w), List.reverse_flatMap]
  rfl

theorem bits_of_overall_lsbFirst {c : Cfg} (hm : c.bitLengthMode = .overall) (ho : c.bitOrder = .lsbFirst)
    (w : Width) {buf : List Elem} (hbuf : buf ≠ []) : bits w c buf = lowBits w c (buf.getD 0 0#64) := by
  rw [bits_of_overall hm w hbuf, firstSlot_of_lsbFirst ho (List.length_pos_iff.2 hbuf), elementBits_of_lsbFirst ho]

theorem bits_of_overall_msbFirst {c : Cfg} (hm : c.bitLengthMode = .overall) (ho : c.bitOrder = .msbFirst)
    (w : Width) {buf : List Elem} (hbuf : buf ≠ []) :
    bits w c buf = (lowBits w c (buf.getD (buf.length - 1) 0#64)).reverse := by
  rw [bits_of_overall hm w hbuf, firstSlot_of_msbFirst ho (List.length_pos_iff.2 hbuf), elementBits_of_msbFirst ho]

/-- Settles O48: the bits of each mode and order, with the first slot at either end of the buffer. -/
theorem emittedBitsOfEachModeAndOrder : Obligations.EmittedBitsOfEachModeAndOrder := by
  refine fun w c buf x => ⟨fun hm ho => ?_, fun hm ho => ?_, fun hm ho => bits_of_each_lsbFirst hm ho w buf,
    fun hm ho => bits_of_each_msbFirst hm ho w buf⟩
  · exact bits_of_overall_lsbFirst hm ho w (List.cons_ne_nil x buf)
  · rw [bits_of_overall_msbFirst hm ho w (by simp)]
    simp [lowBits, bitBudget]

/-! ## Pulse counts (R166) -/

theorem length_bits_of_overall {c : Cfg} (h : c.bitLengthMode = .overall) (w : Width) {buf : List Elem}
    (hbuf : buf ≠ []) : (bits w c buf).length = bitBudget c := by
  rw [bits_of_overall h w hbuf, length_elementBits]

theorem length_bits_of_each {c : Cfg} (h : c.bitLengthMode = .each) (w : Width) (buf : List Elem) :
    (bits w c buf).length = buf.length * bitBudget c := by
  simp [bits_of_each h, List.length_flatMap]

theorem count_clockHigh_flatMap_bitEvents (bs : List Bool) :
    (bs.flatMap bitEvents).count (.writeLevel .clock .high) = bs.length := by
  induction bs with
  | nil => rfl
  | cons b bs ih => simp [bitEvents, ih]

/-- A commit raises the clock once for each data bit it sends (R165, R184). -/
theorem count_clockHigh_commitTrace (w : Width) (c : Cfg) (buf : List Elem) :
    (commitTrace w c buf).count (.writeLevel .clock .high) = (bits w c buf).length := by
  have hlatch : (latchEvents c).count (.writeLevel .clock .high) = 0 := by unfold latchEvents; split <;> decide
  simp [commitTrace, count_clockHigh_flatMap_bitEvents, hlatch]

/-- Settles O49: the pulses are the data bits; under OVERALL the budget is within the first element's `W` bits, so the
minimum is `B`. -/
theorem pulseCounts : Obligations.PulseCounts := by
  intro w c buf hbuf (hB : bitBudget c ≤ w.bits)
  refine ⟨fun hm => ?_, fun hm => ?_⟩ <;> rw [count_clockHigh_commitTrace]
  · rw [length_bits_of_overall hm w hbuf]
    have hcap : bitBudget c ≤ buf.length * w.bits :=
      hB.trans (Nat.le_mul_of_pos_left _ (List.length_pos_iff.2 hbuf))
    exact ⟨rfl, (min_eq_left hcap).symm⟩
  · exact length_bits_of_each hm w buf

/-! ## Bit-order symmetry (R167) -/

/-- Settles O50: the order does not change the low bits themselves, so under EACH the two sequences mirror each other,
and under OVERALL they do when the low bits at the two ends of the buffer agree. -/
theorem bitOrderSymmetry : Obligations.BitOrderSymmetry := by
  intro w c buf hbuf (hB : bitBudget c ≤ w.bits)
  refine ⟨fun hm => ?_, fun hm => ?_, fun hm hzero => ?_⟩
  · have hlsb := bits_of_each_lsbFirst (c := { c with bitOrder := .lsbFirst }) hm rfl w buf
    have hmsb := bits_of_each_msbFirst (c := { c with bitOrder := .msbFirst }) hm rfl w buf
    rw [hlsb, hmsb, List.reverse_reverse]
    rfl
  · have hlsb := bits_of_overall_lsbFirst (c := { c with bitOrder := .lsbFirst }) hm rfl w hbuf
    have hmsb := bits_of_overall_msbFirst (c := { c with bitOrder := .msbFirst }) hm rfl w hbuf
    rw [hlsb, hmsb, List.reverse_reverse]
    exact lowBits_eq_iff hB _ _
  · have hempty : ∀ o : BitOrder, bits w { c with bitOrder := o } buf = [] := fun o =>
      List.length_eq_zero_iff.1 <|
        (length_bits_of_overall (c := { c with bitOrder := o }) hm w hbuf).trans hzero
    exact ⟨hempty .lsbFirst, hempty .msbFirst⟩

end Sys2Proof.Machine

/-! # COMMIT (spec/43_commit.md): its trace, its pseudocode and its state machine -/

namespace Sys2Proof.Machine

/-! ## The length of a trace, and the zero budget (R187, R193) -/

theorem length_flatMap_bitEvents (bs : List Bool) : (bs.flatMap bitEvents).length = 3 * bs.length := by
  simp [List.length_flatMap, bitEvents, Nat.mul_comm]

theorem length_latchEvents (c : Cfg) :
    (latchEvents c).length = 1 + (if c.protocol = .shiftRegister then 1 else 0) := by
  cases h : c.protocol <;> simp [latchEvents, h]

/-- Settles O53: two events to prepare, three for each data bit, and the latch controller's. -/
theorem commitTraceLength : Obligations.CommitTraceLength := by
  intro w c buf
  simp only [commitTrace, List.length_append, length_flatMap_bitEvents, length_latchEvents, List.length_cons,
    List.length_nil]
  omega

theorem elementBits_of_zero {c : Cfg} (h : bitBudget c = 0) (w : Width) : elementBits w c = fun _ => [] :=
  funext fun x => List.length_eq_zero_iff.1 ((length_elementBits w c x).trans h)

theorem bits_of_zero {c : Cfg} (h : bitBudget c = 0) (w : Width) (buf : List Elem) : bits w c buf = [] := by
  cases hm : c.bitLengthMode <;> simp [bits, hm, elementBits_of_zero h]

/-- Settles O54: no element has a bit below a zero budget, so only the prepare and latch events are left. -/
theorem zeroBudgetSendsNothing : Obligations.ZeroBudgetSendsNothing := by
  intro w c buf hzero
  have hbits := bits_of_zero (c := c) (by simp [bitBudget, hzero]) w buf
  refine ⟨hbits, ?_⟩
  cases hp : c.protocol <;> simp [commitTrace, latchEvents, hbits, hp]

/-! ## A list of events at once (R31, R262) -/

/-- The events `es` emitted in turn: the trace grows by them, and the pins follow them. -/
def emitAll (s : State) (es : List Event) : State :=
  { s with pins := es.foldl Pins.after s.pins, trace := s.trace ++ es }

theorem emit_eq_emitAll (s : State) (e : Event) : emit s e = emitAll s [e] := rfl

@[simp] theorem emitAll_params (s : State) (es : List Event) : (emitAll s es).params = s.params := rfl
@[simp] theorem emitAll_cfg (s : State) (es : List Event) : (emitAll s es).cfg = s.cfg := rfl
@[simp] theorem emitAll_length (s : State) (es : List Event) : (emitAll s es).length = s.length := rfl
@[simp] theorem emitAll_buf (s : State) (es : List Event) : (emitAll s es).buf = s.buf := rfl
@[simp] theorem emitAll_bitCounter (s : State) (es : List Event) : (emitAll s es).bitCounter = s.bitCounter := rfl

@[simp] theorem emitAll_nil (s : State) : emitAll s [] = s := by simp [emitAll]

theorem emitAll_emitAll (s : State) (es es' : List Event) : emitAll (emitAll s es) es' = emitAll s (es ++ es') := by
  simp [emitAll]

theorem emitAll_setBitCounter (s : State) (n : Nat) (es : List Event) :
    emitAll (setBitCounter s n) es = setBitCounter (emitAll s es) n := rfl

@[simp] theorem setBitCounter_setBitCounter (s : State) (m n : Nat) :
    setBitCounter (setBitCounter s m) n = setBitCounter s n := rfl

theorem setBitCounter_self (s : State) : setBitCounter s s.bitCounter = s := rfl

/-- One pass of R184 emits the bit's three events and counts it. -/
theorem emitBit_eq (v : Elem) (i : Nat) (s : State) :
    emitBit v i s = setBitCounter (emitAll s (bitEvents (txBit s.cfg v i))) (s.bitCounter + 1) := by
  simp [emitBit, emit_eq_emitAll, emitAll_emitAll, bitEvents]

/-- The latch controller emits the last events of R187. -/
theorem latchOut_eq (s : State) : latchOut s = emitAll s (latchEvents s.cfg) := by
  unfold latchOut latchEvents
  split <;> simp [emit_eq_emitAll, emitAll_emitAll]

/-! ## The end state is the trace's (R190) -/

/-- From a low clock, data bits leave the level of the last one on the data line and move no other line. -/
theorem foldl_after_flatMap_bitEvents (bs : List Bool) {p : Pins} (hclock : p.clock = .low) :
    (bs.flatMap bitEvents).foldl Pins.after p = { p with data := (bs.getLast?.map levelOf).getD p.data } := by
  induction bs generalizing p with
  | nil => rfl
  | cons b bs ih =>
    have hbit : (bitEvents b).foldl Pins.after p = { p with data := levelOf b } := by simp [bitEvents, ← hclock]
    rw [List.flatMap_cons, List.foldl_append, hbit, ih (p := { p with data := levelOf b }) hclock, List.getLast?_cons]
    cases bs.getLast? <;> rfl

theorem foldl_after_latchEvents (c : Cfg) (p : Pins) :
    (latchEvents c).foldl Pins.after p = { p with latch := commitLatchLevel c } := by
  cases h : c.protocol <;> simp [latchEvents, commitLatchLevel, h]

theorem commitDataLevel_eq (w : Width) (c : Cfg) (buf : List Elem) (before : Level) :
    commitDataLevel w c buf before = ((bits w c buf).getLast?.map levelOf).getD before := by
  unfold commitDataLevel
  split <;> simp [*]

/-- The pins R190 states are the ones the trace of R187 drives. -/
theorem commitEnd_eq (s : State) :
    commitEnd s = setBitCounter (emitAll s (commitTrace s.params.width s.cfg s.buf))
      (commitCounter s.params.width s.cfg s.buf) := by
  simp only [commitEnd, setBitCounter, emitAll, commitTrace, List.foldl_append, List.foldl_cons, List.foldl_nil,
    after_writeLevel_latch, after_writeLevel_clock, foldl_after_flatMap_bitEvents, foldl_after_latchEvents,
    commitDataLevel_eq]

/-! ## The loops of the pseudocode (R180) -/

/-- With `i` bits counted and room for the whole budget, the bit loop sends the bits from `i` to `B` and then stops. -/
theorem bitLoop_eq {v : Elem} {n i : Nat} {s : State} (hi : i < bitBudget s.cfg) (hn : bitBudget s.cfg ≤ i + n) :
    bitLoop v n i (setBitCounter s i) = (true, setBitCounter
      (emitAll s (((List.range' i (bitBudget s.cfg - i)).map (txBit s.cfg v)).flatMap bitEvents))
      (bitBudget s.cfg)) := by
  induction n generalizing i s with
  | zero => omega
  | succ n ih =>
    have hrange : List.range' i (bitBudget s.cfg - i) = i :: List.range' (i + 1) (bitBudget s.cfg - (i + 1)) := by
      rw [← List.range'_succ]; congr 1; omega
    simp only [bitLoop, emitBit_eq, setBitCounter_bitCounter, setBitCounter_cfg, emitAll_setBitCounter,
      setBitCounter_setBitCounter, hrange, List.map_cons, List.flatMap_cons]
    split_ifs with hspent
    · rw [Nat.sub_eq_zero_of_le hspent, le_antisymm hspent hi]
      simp
    · rw [ih (by simpa using hspent) (by simp; omega), emitAll_emitAll, emitAll_cfg]

/-- The data bits of the element at index `e` (R165). -/
def bitsAt (s : State) (e : Nat) : List Bool := elementBits s.params.width s.cfg (s.buf.getD e 0#64)

/-- An element whose count starts at 0 sends its `B` bits, and signals stop when there is one. -/
theorem emitElement_eq {s : State} {n : Nat} (e : Nat) (hB : bitBudget s.cfg ≤ s.params.width.bits)
    (hov : isOverall s.cfg = true → n = 0 ∧ 0 < bitBudget s.cfg) :
    emitElement e (setBitCounter s n) =
      (decide (0 < bitBudget s.cfg), setBitCounter (emitAll s ((bitsAt s e).flatMap bitEvents)) (bitBudget s.cfg)) := by
  have hcount : (if isOverall s.cfg then n else 0) = 0 := ite_eq_right_iff.2 fun h => (hov h).1
  change bitLoop (tx s.params.width s.cfg (s.buf.getD e 0#64)) (maxBits s.params.width s.cfg) 0
    (setBitCounter s (if isOverall s.cfg then n else 0)) = _
  rw [hcount]
  rcases Nat.eq_zero_or_pos (bitBudget s.cfg) with hzero | hpos
  · have hmode : s.cfg.bitLengthMode = .each := by
      cases hm : s.cfg.bitLengthMode with
      | overall => exact absurd (hov (isOverall_eq_true.2 hm)).2 (by omega)
      | each => rfl
    simp [maxBits, hmode, hzero, bitLoop, bitsAt, elementBits_of_zero hzero]
  · have hcap : bitBudget s.cfg ≤ 0 + maxBits s.params.width s.cfg := by
      unfold maxBits; split <;> omega
    rw [bitLoop_eq hpos hcap, decide_eq_true hpos, bitsAt, elementBits, List.range_eq_range', Nat.sub_zero]

theorem traverse_of_each {es : List Nat} {s : State} {n : Nat} (hm : s.cfg.bitLengthMode = .each)
    (hB : bitBudget s.cfg ≤ s.params.width.bits) :
    traverse es (setBitCounter s n) = setBitCounter (emitAll s ((es.flatMap (bitsAt s)).flatMap bitEvents))
      (if es = [] then n else bitBudget s.cfg) := by
  have hov : isOverall s.cfg = false := by simp [isOverall, hm]
  induction es generalizing s n with
  | nil => simp [traverse]
  | cons e es ih =>
    rw [traverse, emitElement_eq e hB (by simp [hov]), setBitCounter_cfg, if_neg (by simp [hov]),
      if_neg (by simp [hov]), ih (s := emitAll s _) hm hB hov, emitAll_emitAll, List.flatMap_cons, List.flatMap_append]
    cases es <;> rfl

/-- Under OVERALL the budget is spent within the first element, so no other one is visited (R164, R165). -/
theorem traverse_of_overall {e : Nat} {es : List Nat} {s : State} (hm : s.cfg.bitLengthMode = .overall)
    (hB : bitBudget s.cfg ≤ s.params.width.bits) :
    traverse (e :: es) (setBitCounter s 0) =
      setBitCounter (emitAll s ((bitsAt s e).flatMap bitEvents)) (bitBudget s.cfg) := by
  have hov := isOverall_eq_true.2 hm
  rcases Nat.eq_zero_or_pos (bitBudget s.cfg) with hzero | hpos
  · simp [traverse, hov, bitsAt, elementBits_of_zero hzero, hzero]
  · rw [traverse, emitElement_eq e hB fun _ => ⟨rfl, hpos⟩]
    simp [hov, hpos, hpos.ne']

theorem exists_order_eq_cons {c : Cfg} {len : Nat} (hlen : 1 ≤ len) :
    ∃ rest, order c len = firstSlot c len :: rest := by
  rw [← List.head?_eq_some_iff, List.head?_eq_getElem?]
  exact getElem?_zero_order hlen

theorem commitCounter_eq {buf : List Elem} (hbuf : buf ≠ []) (w : Width) (c : Cfg) :
    commitCounter w c buf = bitBudget c := by
  unfold commitCounter
  split
  · exact length_bits_of_overall ‹_› w hbuf
  · rfl

/-- The element loop of R180 sends the bits of R165 and leaves the counter of R190. -/
theorem traverse_order_eq {s : State} (hd : DataInv s) :
    traverse (order s.cfg s.length) (setBitCounter s 0) =
      setBitCounter (emitAll s ((bits s.params.width s.cfg s.buf).flatMap bitEvents))
        (commitCounter s.params.width s.cfg s.buf) := by
  obtain ⟨hlen, -⟩ := wf_iff.1 hd.buf_wf
  have hbuf : s.buf ≠ [] := List.length_pos_iff.1 (hlen ▸ hd.length_pos)
  rw [commitCounter_eq hbuf]
  cases hm : s.cfg.bitLengthMode with
  | each =>
    have hne : order s.cfg s.length ≠ [] := List.length_pos_iff.1 (by rw [order_length]; exact hd.length_pos)
    rw [traverse_of_each hm hd.bitLength_le, if_neg hne, bits_of_each hm, visited, List.flatMap_map, hlen]
    rfl
  | overall =>
    obtain ⟨rest, horder⟩ := exists_order_eq_cons (c := s.cfg) hd.length_pos
    rw [horder, traverse_of_overall hm hd.bitLength_le, bits_of_overall hm _ hbuf, hlen]
    rfl

/-- The state in which the traversal starts: both lines lowered and the counter reset (R181). -/
def prepared (s : State) : State := setBitCounter (emit (emit s (.writeLevel .latch .low)) (.writeLevel .clock .low)) 0

theorem runCommit_eq (s : State) : runCommit s = latchOut (traverse (order s.cfg s.length) (prepared s)) := rfl

theorem traverse_prepared_eq {s : State} (hd : DataInv s) :
    traverse (order s.cfg s.length) (prepared s) =
      setBitCounter (emitAll s ([.writeLevel .latch .low, .writeLevel .clock .low] ++
        (bits s.params.width s.cfg s.buf).flatMap bitEvents)) (commitCounter s.params.width s.cfg s.buf) := by
  have hd' : DataInv (emit (emit s (.writeLevel .latch .low)) (.writeLevel .clock .low)) := by simpa using hd
  refine (traverse_order_eq hd').trans ?_
  simp [emit_eq_emitAll, emitAll_emitAll]

/-- The pseudocode of a commit ends in the state of R190 with the trace of R187. -/
theorem runCommit_eq_commitEnd {s : State} (hd : DataInv s) : runCommit s = commitEnd s := by
  rw [runCommit_eq, traverse_prepared_eq hd, latchOut_eq, emitAll_setBitCounter, emitAll_emitAll, commitEnd_eq]
  rfl

/-- Settles O52: the loops send the bits of R165 between the prepare and the latch events. -/
theorem commitPseudocodeHasTheClosedForm : Obligations.CommitPseudocodeHasTheClosedForm :=
  fun _ hinv => runCommit_eq_commitEnd (inv_iff.1 hinv).1

/-! ## Runs of bounded length (R189) -/

/-- Some number of steps, at most `n`, leads from `s` to `t`. -/
def ReachesWithin (n : Nat) (s t : State) : Prop := ∃ m ≤ n, stepN m s = .next t

theorem ReachesWithin.refl (n : Nat) (s : State) : ReachesWithin n s s := ⟨0, Nat.zero_le n, rfl⟩

theorem ReachesWithin.mono {m n : Nat} {s t : State} (h : ReachesWithin m s t) (hmn : m ≤ n) :
    ReachesWithin n s t := by
  obtain ⟨k, hk, hrun⟩ := h
  exact ⟨k, hk.trans hmn, hrun⟩

theorem ReachesWithin.head {n : Nat} {s t u : State} (hstep : step s = .next t) (h : ReachesWithin n t u) :
    ReachesWithin (n + 1) s u := by
  obtain ⟨k, hk, hrun⟩ := h
  exact ⟨k + 1, Nat.succ_le_succ hk, (stepN_succ_of_step hstep k).trans hrun⟩

theorem stepN_add {m : Nat} {s t : State} (h : stepN m s = .next t) (n : Nat) : stepN (m + n) s = stepN n t := by
  induction m generalizing s with
  | zero => cases h; rw [Nat.zero_add]
  | succ m ih =>
    cases hstep : step s with
    | next u =>
      rw [stepN_succ_of_step hstep] at h
      rw [Nat.add_right_comm, stepN_succ_of_step hstep, ih h]
    | fault f => simp [stepN, hstep] at h
    | refused r => simp [stepN, hstep] at h

theorem ReachesWithin.trans {m n : Nat} {s t u : State} (h : ReachesWithin m s t) (h' : ReachesWithin n t u) :
    ReachesWithin (m + n) s u := by
  obtain ⟨k, hk, hrun⟩ := h
  obtain ⟨k', hk', hrun'⟩ := h'
  exact ⟨k + k', Nat.add_le_add hk hk', (stepN_add hrun k').trans hrun'⟩

/-! ## The rows of the state machine, one step each (R189) -/

/-- What a commit in flight needs to run to its end, and no row of it changes: an unmarked block, a host that waits, and
the buffer's length (R28) and bit budget (R24) within their bounds. -/
structure Undisturbed (s : State) : Prop where
  unmarked : s.faulted = false
  waits : hostWaits s = true
  buf_length : s.buf.length = s.length
  bitLength_le : bitBudget s.cfg ≤ s.params.width.bits

theorem Undisturbed.emitted {s : State} (h : Undisturbed s) (es : List Event) (n : Nat) :
    Undisturbed (setBitCounter (emitAll s es) n) := { h with }

theorem Undisturbed.afterEmit {s : State} (h : Undisturbed s) (e : Event) : Undisturbed (emit s e) := { h with }

section Rows

variable {s t u : State} {cur : Cursor} {ret : Ret} {sub : CommitSub} {n : Nat}

/-- In an undisturbed block a commit sub-state's row is the block's own next step. -/
theorem Undisturbed.row (h : Undisturbed s)
    (hrow : commitStep sub cur ret (setSeq s (.commit sub cur ret)) = .next t) (hrest : ReachesWithin n t u) :
    ReachesWithin (n + 1) (setSeq s (.commit sub cur ret)) u :=
  .head ((step_of_waiting (s := setSeq s (.commit sub cur ret)) h.unmarked (by simp) h.waits).trans hrow) hrest

/-- Where the machine goes after the element at position `k`: under OVERALL a stop ends the traversal, and in every
other case the next position is due (R164, R184). -/
def afterElement (stop : Bool) (c : Cfg) (k : Nat) (cur : Cursor) (ret : Ret) : SeqState :=
  if stop && isOverall c then .commit .latchHi cur ret else .commit .next { cur with k := k + 1 } ret

/-- CM_CLK_LO goes on to the next bit, or after the element once the budget is spent. -/
theorem cmClkLo_eq :
    cmClkLo cur ret s = setSeq (setBitCounter (emit s (.writeLevel .clock .low)) (s.bitCounter + 1))
      (if bitBudget s.cfg ≤ s.bitCounter + 1 then afterElement true s.cfg cur.k { cur with i := cur.i + 1 } ret
        else .commit .data { cur with i := cur.i + 1 } ret) := by
  unfold cmClkLo afterElement
  split_ifs <;> simp_all

/-- The three rows of a data bit are one pass of the pseudocode's bit loop. -/
theorem bit_reached (h : Undisturbed s) (hi : cur.i ≠ maxBits s.params.width s.cfg) :
    ReachesWithin 3 (setSeq s (.commit .data cur ret)) (setSeq (emitBit cur.v cur.i s)
      (if bitBudget s.cfg ≤ s.bitCounter + 1 then afterElement true s.cfg cur.k { cur with i := cur.i + 1 } ret
        else .commit .data { cur with i := cur.i + 1 } ret)) := by
  have hdata : cmData cur ret (setSeq s (.commit .data cur ret)) =
      setSeq (emit s (.writeLevel .data (levelOf (txBit s.cfg cur.v cur.i)))) (.commit .clkHi cur ret) := if_neg hi
  have h₁ := h.afterEmit (.writeLevel .data (levelOf (txBit s.cfg cur.v cur.i)))
  have h₂ := h₁.afterEmit (.writeLevel .clock .high)
  refine h.row (congrArg Host.Outcome.next hdata) (h₁.row (sub := .clkHi) rfl ?_)
  exact h₂.row (sub := .clkLo) (congrArg Host.Outcome.next cmClkLo_eq) (.refl 0 _)

/-- From CM_DATA the machine runs the rest of the pseudocode's bit loop. -/
theorem bitLoop_reached (h : Undisturbed s) (hn : cur.i + n = maxBits s.params.width s.cfg) :
    ∃ cur', ReachesWithin (3 * n + 1) (setSeq s (.commit .data cur ret)) (setSeq (bitLoop cur.v n cur.i s).2
      (afterElement (bitLoop cur.v n cur.i s).1 s.cfg cur.k cur' ret)) := by
  induction n generalizing cur s with
  | zero =>
    have hdata : cmData cur ret (setSeq s (.commit .data cur ret)) =
        setSeq s (afterElement false s.cfg cur.k cur ret) := if_pos hn
    exact ⟨cur, h.row (congrArg Host.Outcome.next hdata) (.refl 0 _)⟩
  | succ n ih =>
    have hbit := bit_reached (ret := ret) h (cur := cur) (by omega)
    have hcounter : (emitBit cur.v cur.i s).bitCounter = s.bitCounter + 1 := rfl
    simp only [bitLoop, hcounter]
    split_ifs at hbit ⊢ with hspent
    · exact ⟨_, hbit.mono (by omega)⟩
    · have h' : Undisturbed (emitBit cur.v cur.i s) := emitBit_eq cur.v cur.i s ▸ h.emitted _ _
      obtain ⟨cur', hrest⟩ := ih h' (cur := { cur with i := cur.i + 1 }) ((Nat.succ_add_eq_add_succ _ _).trans hn)
      exact ⟨cur', (hbit.trans hrest).mono (by omega)⟩

/-- The bit loop emits events and counts, and changes nothing else. -/
theorem bitLoop_emits (v : Elem) (n i : Nat) (s : State) :
    ∃ es m, (bitLoop v n i s).2 = setBitCounter (emitAll s es) m := by
  induction n generalizing i s with
  | zero => exact ⟨[], s.bitCounter, by simp [bitLoop, setBitCounter_self]⟩
  | succ n ih =>
    simp only [bitLoop, emitBit_eq]
    split_ifs
    · exact ⟨_, _, rfl⟩
    · obtain ⟨es, m, hrest⟩ :=
        ih (i + 1) (setBitCounter (emitAll s (bitEvents (txBit s.cfg v i))) (s.bitCounter + 1))
      exact ⟨_, m, by rw [hrest, emitAll_setBitCounter, emitAll_emitAll, setBitCounter_setBitCounter]⟩

theorem emitElement_emits (e : Nat) (s : State) : ∃ es m, (emitElement e s).2 = setBitCounter (emitAll s es) m :=
  bitLoop_emits _ _ _ (setBitCounter s _)

theorem maxBits_le {w : Width} {c : Cfg} (hB : bitBudget c ≤ w.bits) : maxBits w c ≤ w.bits := by
  unfold maxBits
  split
  · exact hB
  · exact le_rfl

theorem cmNext_of_end (hend : cur.k = s.length ∨ (isOverall s.cfg = true ∧ bitBudget s.cfg ≤ s.bitCounter)) :
    cmNext cur ret s = .next (setSeq s (.commit .latchHi cur ret)) := if_pos hend

theorem cmNext_of_element {e : Nat} {x : Elem} (he : (order s.cfg s.length)[cur.k]? = some e)
    (hx : memRead s e = some x) (hgo : ¬(isOverall s.cfg = true ∧ bitBudget s.cfg ≤ s.bitCounter)) :
    cmNext cur ret s = .next (cmStartElement cur ret e x s) := by
  have hk : cur.k ≠ s.length := by
    obtain ⟨hlt, -⟩ := List.getElem?_eq_some_iff.1 he
    rw [order_length] at hlt
    exact hlt.ne
  rw [cmNext, if_neg (not_or.2 ⟨hk, hgo⟩)]
  simp only [he, hx]

/-- The machine visits an element as the pseudocode does: it starts the element and runs its bit loop (R183, R184). -/
theorem emitElement_reached {e : Nat} (h : Undisturbed s) (he : (order s.cfg s.length)[cur.k]? = some e)
    (hgo : ¬(isOverall s.cfg = true ∧ bitBudget s.cfg ≤ s.bitCounter)) :
    ∃ cur', ReachesWithin (3 * s.params.width.bits + 2) (setSeq s (.commit .next cur ret))
      (setSeq (emitElement e s).2 (afterElement (emitElement e s).1 s.cfg cur.k cur' ret)) := by
  have hlt : e < s.length := mem_order.1 (List.mem_of_getElem? he)
  have hx : memRead s e = some (s.buf.getD e 0#64) := by
    rw [memRead, if_pos hlt, List.getD_eq_getElem?_getD, List.getElem?_eq_getElem (h.buf_length ▸ hlt)]
    rfl
  have h' : Undisturbed (setBitCounter s (if isOverall s.cfg then s.bitCounter else 0)) := { h with }
  obtain ⟨cur', hbits⟩ := bitLoop_reached (ret := ret) h' (Nat.zero_add _)
    (cur := { cur with e := e, v := tx s.params.width s.cfg (s.buf.getD e 0#64), i := 0 })
  have hcap := maxBits_le h.bitLength_le
  have hrow := cmNext_of_element (s := setSeq s (.commit .next cur ret)) (ret := ret) he hx hgo
  exact ⟨cur', (h.row (sub := .next) hrow hbits).mono (by simp; omega)⟩

/-- From CM_NEXT the machine visits the rest of the traversal as the pseudocode does, and comes to CM_LATCH_HI. -/
theorem traverse_reached {es : List Nat} (h : Undisturbed s) (hk : cur.k ≤ s.length)
    (hes : (order s.cfg s.length).drop cur.k = es) :
    ∃ cur', ReachesWithin (es.length * (3 * s.params.width.bits + 2) + 1) (setSeq s (.commit .next cur ret))
      (setSeq (traverse es s) (.commit .latchHi cur' ret)) := by
  induction es generalizing s cur with
  | nil =>
    have hend : cur.k = s.length := le_antisymm hk (by simpa using hes)
    exact ⟨cur, h.row (cmNext_of_end (.inl hend)) (.refl _ _)⟩
  | cons e es ih =>
    have he : (order s.cfg s.length)[cur.k]? = some e := by rw [← List.head?_drop, hes]; rfl
    have hrest : (order s.cfg s.length).drop (cur.k + 1) = es := by rw [← List.tail_drop, hes]; rfl
    have hlt : cur.k < s.length := by simpa using (List.getElem?_eq_some_iff.1 he).1
    by_cases hspent : isOverall s.cfg = true ∧ bitBudget s.cfg ≤ s.bitCounter
    · rw [traverse, if_pos hspent]
      exact ⟨cur, h.row (cmNext_of_end (.inr hspent)) (.refl _ _)⟩
    · obtain ⟨cur', helem⟩ := emitElement_reached (ret := ret) h he hspent
      obtain ⟨evs, m, hstate⟩ := emitElement_emits e s
      rw [afterElement] at helem
      simp only [traverse, if_neg hspent, hstate] at helem ⊢
      split_ifs at helem ⊢ with hstop
      · exact ⟨cur', helem.mono (by simp [Nat.succ_mul]; omega)⟩
      · obtain ⟨cur'', htail⟩ := ih (h.emitted evs m) (cur := { cur' with k := cur.k + 1 }) hlt hrest
        exact ⟨cur'', (helem.trans htail).mono (by simp [Nat.succ_mul]; omega)⟩

end Rows

/-! ## The whole commit (R180, R189, R191) -/

/-- END does not read the sub-state it stands in, and is the last step of a commit. -/
theorem done_reached {s : State} {cur : Cursor} {ret : Ret} (h : Undisturbed s) :
    ReachesWithin 1 (setSeq s (.commit .done cur ret)) (cmDone ret s) := by
  have hdone : cmDone ret (setSeq s (.commit .done cur ret)) = cmDone ret s := by cases ret <;> rfl
  exact h.row (congrArg Host.Outcome.next hdone) (.refl 0 _)

/-- From CM_LATCH_HI the machine is the latch controller, and then END. -/
theorem latchOut_reached {s : State} {cur : Cursor} {ret : Ret} (h : Undisturbed s) :
    ReachesWithin 3 (setSeq s (.commit .latchHi cur ret)) (cmDone ret (latchOut s)) := by
  have h₁ := h.afterEmit (.writeLevel .latch .high)
  have h₂ := h₁.afterEmit (.writeLevel .latch .low)
  have hlatch : commitStep .latchHi cur ret (setSeq s (.commit .latchHi cur ret)) = .next (setSeq
      (emit s (.writeLevel .latch .high))
      (.commit (if s.cfg.protocol = .shiftRegister then .latchIdle else .done) cur ret)) := by
    cases hp : s.cfg.protocol <;> simp [commitStep, cmLatchHi, hp] <;> rfl
  refine h.row hlatch ?_
  cases hp : s.cfg.protocol with
  | shiftRegister =>
    simp only [latchOut, hp, if_true]
    have hdone := done_reached (cur := cur) (ret := ret) h₂
    exact h₁.row (sub := .latchIdle) rfl hdone
  | shiftSpi =>
    simp only [latchOut, hp, reduceCtorEq, if_false]
    exact (done_reached h₁).mono (by omega)

theorem DataInv.undisturbed {s : State} (hd : DataInv s) (hf : s.faulted = false) (hw : hostWaits s = true) :
    Undisturbed s where
  unmarked := hf
  waits := hw
  buf_length := (wf_iff.1 hd.buf_wf).1
  bitLength_le := hd.bitLength_le

/-- A commit that has started, by COMMIT or for the calibrator, runs to the state of R190 and goes on where `ret`
says. -/
theorem commit_reached {s : State} (hd : DataInv s) (hf : s.faulted = false) (hw : hostWaits s = true) (ret : Ret) :
    ReachesWithin (s.length * (3 * s.params.width.bits + 2) + 6) (startCommit s ret) (cmDone ret (commitEnd s)) := by
  have h := hd.undisturbed hf hw
  have hprepared : Undisturbed (prepared s) := { h with }
  have htraversed : Undisturbed (traverse (order s.cfg s.length) (prepared s)) :=
    traverse_prepared_eq hd ▸ h.emitted _ _
  obtain ⟨cur, htraverse⟩ := traverse_reached (ret := ret) (cur := Cursor.start) hprepared (Nat.zero_le _) rfl
  have hrest := htraverse.trans (latchOut_reached htraversed)
  rw [← runCommit_eq_commitEnd hd, runCommit_eq]
  refine (h.row (sub := .latchLo) rfl ((h.afterEmit _).row (sub := .clockLo) rfl hrest)).mono (le_of_eq ?_)
  simp [Cursor.start, prepared]

/-- Settles O51: the acceptance starts the commit, which runs to its end within the bound, and END of a COMMIT responds
and leaves the block idle as it was. -/
theorem commitCompletesWithItsTrace : Obligations.CommitCompletesWithItsTrace := by
  intro s hinv hready hwaits
  obtain ⟨hd, -⟩ := inv_iff.1 hinv
  obtain ⟨n, hn, hrun⟩ := commit_reached hd hready.2 hwaits .idle
  have hdone : cmDone .idle (commitEnd s) = responded (commitEnd s) .ok 0#64 := by
    change setSeq (respond (commitEnd s) .ok 0#64) .idle = _
    rw [← hready.1]
    rfl
  have hstart : exec .commit s = .next (startCommit s .idle) := show execCommit s = _ from accept_of_ready hready
  exact ⟨startCommit s .idle, n, hstart, hn.trans (le_of_eq (by ring)), hdone ▸ hrun⟩

end Sys2Proof.Machine

/-! # AUTOSENSE (spec/44_autosense.md): its result, its marker, its pseudocode and its state machine -/

namespace Sys2Proof.Machine

/-! ## The bank count (R228, R229) -/

/-- Settles O57: `bankCount` is the first of the `MAX_BANK_COUNT` samples at the marker level, counted from 1, and the
maximum where there is none. -/
theorem bankCountIsTheFirstMarkerSample : Obligations.BankCountIsTheFirstMarkerSample := by
  rintro s ⟨-, -, hmax, -⟩
  unfold bankCount
  split
  case h_1 j hfind =>
    obtain ⟨hmark, hj, hbefore⟩ := List.find?_range_eq_some.1 hfind
    have hlt := List.mem_range.1 hj
    refine ⟨by omega, hlt, fun i hi => ?_, fun _ => of_decide_eq_true hmark⟩
    simpa using hbefore i (by omega)
  case h_2 hnone =>
    have hbefore := List.find?_range_eq_none.1 hnone
    refine ⟨hmax, le_rfl, fun i hi => ?_, fun h => absurd h (lt_irrefl _)⟩
    simpa using hbefore i (by omega)

/-! ## The sample (R226, R227) -/

/-- Settles O58: the step is AS_SAMPLE's row, which takes the level at the head of the environment's list. -/
theorem sampleIsAFreeInput : Obligations.SampleIsAFreeInput := by
  intro s l rest hf hs hw hl
  have hrow : step s = .next (asSample s) :=
    (step_of_waiting hf (by simp [hs]) hw).trans (sequencerStep_of_calib hs)
  have hlevel : senseLevel s = l := by simp [senseLevel, hl]
  have htaken : takeSense s = { s with senseIn := rest } := by simp [takeSense, hl]
  rw [hrow, asSample, sample, hlevel, htaken]
  rfl

/-! ## The marker among the bits of a commit (R224, R233) -/

section Marker

variable {w : Width} {c : Cfg}

/-- The bits of `x` below `W`, each inverted under ones-complement (R163). -/
theorem getLsbD_tx {k : Nat} (hk : k < w.bits) (x : Elem) :
    (tx w c x).getLsbD k = (x.getLsbD k ^^ c.onesComplement) := by
  cases h : c.onesComplement with
  | false => simp [tx_of_not_onesComplement h]
  | true => simp [tx_of_onesComplement h, getLsbD_elemNot, hk]

theorem getLsbD_elemMarker (w : Width) (k : Nat) : (elemMarker w).getLsbD k = decide (k = w.bits - 1) := by
  have hpos := width_bits_pos w
  have hle := width_bits_le w
  simp only [elemMarker, elemOf, BitVec.getLsbD_setWidth, BitVec.getLsbD_twoPow]
  by_cases hk : k = w.bits - 1
  · simp [hk]; omega
  · simp [hk, Ne.symm hk]

theorem getElem?_elementBits {i : Nat} (hi : i < bitBudget c) (x : Elem) :
    (elementBits w c x)[i]? = some (txBit c (tx w c x) i) := by
  simp [elementBits, hi]

/-- A commit sends the bits of its first slot first, in either mode (R165). -/
theorem exists_bits_eq_append {buf : List Elem} (hbuf : 1 ≤ buf.length) :
    ∃ rest, bits w c buf = elementBits w c (buf.getD (firstSlot c buf.length) 0#64) ++ rest := by
  obtain ⟨rest, horder⟩ := exists_order_eq_cons (c := c) hbuf
  cases hm : c.bitLengthMode <;> simp [bits, hm, visited, horder]

theorem exists_of_mem_bits {buf : List Elem} {b : Bool} (h : b ∈ bits w c buf) :
    ∃ x ∈ buf, b ∈ elementBits w c x := by
  have hvisited : ∃ x ∈ visited c buf, b ∈ elementBits w c x := by
    cases hm : c.bitLengthMode with
    | overall =>
      simp only [bits, hm, List.mem_flatMap] at h
      obtain ⟨x, hx, hb⟩ := h
      exact ⟨x, List.mem_of_mem_take hx, hb⟩
    | each => simpa [bits, hm] using h
  obtain ⟨x, hx, hb⟩ := hvisited
  obtain ⟨e, he, rfl⟩ := List.mem_map.1 hx
  have hlt := mem_order.1 he
  exact ⟨_, by simp [hlt], hb⟩

end Marker

theorem firstSlot_lt {c : Cfg} {len : Nat} (hlen : 1 ≤ len) : firstSlot c len < len :=
  mem_order.1 (List.mem_of_getElem? (getElem?_zero_order hlen))

@[simp] theorem length_zeroBuf (s : State) : (zeroBuf s).length = s.length := List.length_replicate

@[simp] theorem length_markerBuf (s : State) : (markerBuf s).length = s.length := by simp [markerBuf]

theorem mem_markerBuf {s : State} {x : Elem} (h : x ∈ markerBuf s) :
    x = 0#64 ∨ x = elemMarker s.params.width :=
  (List.mem_or_eq_of_mem_set h).imp_left List.eq_of_mem_replicate

theorem getD_firstSlot_markerBuf {s : State} (hlen : 1 ≤ s.length) :
    (markerBuf s).getD (firstSlot s.cfg s.length) 0#64 = elemMarker s.params.width := by
  simp [markerBuf, firstSlot_lt hlen]

/-- Below full width no commit of the marker pattern sends the marker: bit `W-1` of no element is sent. -/
theorem eq_onesComplement_of_mem_bits_markerBuf {s : State} (hB : bitBudget s.cfg < s.params.width.bits) {b : Bool}
    (h : b ∈ bits s.params.width s.cfg (markerBuf s)) : b = s.cfg.onesComplement := by
  obtain ⟨x, hx, hb⟩ := exists_of_mem_bits h
  obtain ⟨i, hi, rfl⟩ := List.mem_map.1 hb
  have hk : bitIndex s.cfg i < bitBudget s.cfg := (bitIndexFollowsBitOrder s.cfg i (List.mem_range.1 hi)).2.2
  have hzero : x.getLsbD (bitIndex s.cfg i) = false := by
    rcases mem_markerBuf hx with rfl | rfl
    · simp
    · rw [getLsbD_elemMarker, decide_eq_false (by omega)]
  rw [txBit, getLsbD_tx (hk.trans hB), hzero, Bool.false_xor]

/-- At full width the marker is the bit of index `W-1` that the first slot sends. -/
theorem getElem?_bits_markerBuf {s : State} (hlen : 1 ≤ s.length) (hB : bitBudget s.cfg = s.params.width.bits) :
    (bits s.params.width s.cfg (markerBuf s))[if s.cfg.bitOrder = .lsbFirst then s.params.width.bits - 1 else 0]? =
      some (!s.cfg.onesComplement) := by
  have hpos := width_bits_pos s.params.width
  obtain ⟨rest, hbits⟩ := exists_bits_eq_append (w := s.params.width) (c := s.cfg)
    (buf := markerBuf s) (by rwa [length_markerBuf])
  rw [length_markerBuf, getD_firstSlot_markerBuf hlen] at hbits
  generalize hi : (if s.cfg.bitOrder = .lsbFirst then s.params.width.bits - 1 else 0) = i
  have hlt : i < bitBudget s.cfg := by rw [hB, ← hi]; split_ifs <;> omega
  have hindex : bitIndex s.cfg i = s.params.width.bits - 1 := by
    cases ho : s.cfg.bitOrder with
    | lsbFirst => rw [bitIndex_of_lsbFirst ho, ← hi, if_pos ho]
    | msbFirst => rw [bitIndex_of_msbFirst ho, ← hi, hB]; simp [ho]
  rw [hbits, List.getElem?_append_left (by rwa [length_elementBits]), getElem?_elementBits hlt, txBit, hindex,
    getLsbD_tx (by omega), getLsbD_elemMarker]
  simp

/-- Settles O59: below full width every bit sent is the idle pattern's, and at full width the marker is sent where the
second clause says. -/
theorem markerIsSentOnlyAtFullWidth : Obligations.MarkerIsSentOnlyAtFullWidth := by
  refine fun s hlen hB => ⟨⟨fun ⟨b, hb, hne⟩ => ?_, fun hfull => ?_⟩, getElem?_bits_markerBuf hlen⟩
  · exact hB.antisymm (not_lt.1 fun hlt => hne (eq_onesComplement_of_mem_bits_markerBuf hlt hb))
  · exact ⟨_, List.mem_of_getElem? (getElem?_bits_markerBuf hlen hfull), by simp⟩

/-! ## The patterns of the calibrator (R222 to R225) -/

/-- The buffer that pass `j` of the propagation loop, counted from 0, commits (R225): the marker's in the first, zeros
after it. -/
def patternAt (s : State) (j : Nat) : List Elem := if j = 0 then markerBuf s else zeroBuf s

@[simp] theorem length_patternAt (s : State) (j : Nat) : (patternAt s j).length = s.length := by
  unfold patternAt; split <;> simp

theorem patternAt_succ (s : State) (j : Nat) : patternAt s (j + 1) = zeroBuf s := if_neg j.succ_ne_zero

/-- Clearing the marker's slot leaves zeros, whichever pattern was there (R225). -/
theorem set_firstSlot_patternAt (s : State) (j : Nat) :
    (patternAt s j).set (firstSlot s.cfg s.length) 0#64 = zeroBuf s := by
  unfold patternAt markerBuf zeroBuf
  split <;> simp

theorem zeroBuf_wf (s : State) : Memory.wf s.params.width s.length (zeroBuf s) = true :=
  memFill_wf (s := s) (zero_lt_width _)

theorem patternAt_wf (s : State) (j : Nat) : Memory.wf s.params.width s.length (patternAt s j) = true := by
  unfold patternAt
  split
  · exact memWrite_wf (s := memFill s 0#64) (zeroBuf_wf s) (elemOf_lt _ _)
  · exact zeroBuf_wf s

section Buffers

variable {s : State} (hlen : 1 ≤ s.length)
include hlen

theorem zeroBuf_ne_nil : zeroBuf s ≠ [] := List.length_pos_iff.1 (by rwa [length_zeroBuf])

theorem patternAt_ne_nil (j : Nat) : patternAt s j ≠ [] := List.length_pos_iff.1 (by rwa [length_patternAt])

end Buffers

/-! ## The pins after commits one after another (R190) -/

/-- The pins after a commit of `buf` from the pins `p` (R190). -/
def committedPins (w : Width) (c : Cfg) (buf : List Elem) (p : Pins) : Pins where
  data := commitDataLevel w c buf p.data
  clock := .low
  latch := commitLatchLevel c
  senseInput := p.senseInput

theorem foldl_after_commitTrace (w : Width) (c : Cfg) (buf : List Elem) (p : Pins) :
    (commitTrace w c buf).foldl Pins.after p = committedPins w c buf p := by
  simp only [commitTrace, List.foldl_append, List.foldl_cons, List.foldl_nil, after_writeLevel_latch,
    after_writeLevel_clock, foldl_after_flatMap_bitEvents, foldl_after_latchEvents, committedPins, commitDataLevel_eq]

/-- A commit sends no bit only under a zero budget. -/
theorem bitBudget_eq_zero_of_bits_eq_nil {w : Width} {c : Cfg} {buf : List Elem} (hbuf : buf ≠ [])
    (h : bits w c buf = []) : bitBudget c = 0 := by
  obtain ⟨rest, hbits⟩ := exists_bits_eq_append (w := w) (c := c) (List.length_pos_iff.2 hbuf)
  rw [h] at hbits
  rw [← length_elementBits w c, (List.append_eq_nil_iff.1 hbits.symm).1, List.length_nil]

/-- Of two commits the later one decides the pins. -/
theorem committedPins_committedPins {w : Width} {c : Cfg} {buf : List Elem} (hbuf : buf ≠ []) (buf' : List Elem)
    (p : Pins) : committedPins w c buf (committedPins w c buf' p) = committedPins w c buf p := by
  simp only [committedPins, commitDataLevel_eq]
  rcases List.eq_nil_or_concat (bits w c buf) with hnil | ⟨bs, b, hbits⟩
  · simp [bits_of_zero (bitBudget_eq_zero_of_bits_eq_nil hbuf hnil)]
  · simp [hbits]

/-! ## What the two loops emit (R231) -/

/-- The events up to the end of the flush commit numbered `i`. -/
def flushTrace (s : State) (i : Nat) : List Event :=
  .setInputMode :: (List.replicate i
    (commitTrace s.params.width s.cfg (zeroBuf s) ++ [.delay s.params.flushDelayMs])).flatten

theorem flushTrace_succ (s : State) (i : Nat) :
    flushTrace s (i + 1) = flushTrace s i ++ (commitTrace s.params.width s.cfg (zeroBuf s) ++
      [.delay s.params.flushDelayMs]) := by
  simp [flushTrace, List.replicate_succ']

/-- The events up to the `j`-th sample. -/
def passTrace (s : State) (j : Nat) : List Event :=
  flushTrace s s.params.flushCommits ++ (List.range j).flatMap fun i => senseTrace s (patternAt s i) i

theorem passTrace_succ (s : State) (j : Nat) :
    passTrace s (j + 1) = passTrace s j ++ senseTrace s (patternAt s j) j := by
  simp [passTrace, List.range_succ]

/-- R231 lists the pass with the marker before the others. -/
theorem passTrace_bankCount {s : State} (hbank : 1 ≤ bankCount s) :
    passTrace s (bankCount s) = autosenseTrace s := by
  unfold passTrace autosenseTrace
  generalize bankCount s = k at hbank
  obtain ⟨n, rfl⟩ := Nat.exists_eq_succ_of_ne_zero (Nat.one_le_iff_ne_zero.1 hbank)
  simp [flushTrace, List.range_succ_eq_map, List.flatMap_map, patternAt]

theorem foldl_after_senseTrace (s : State) {buf : List Elem} (hbuf : buf ≠ []) (j : Nat) (buf' : List Elem)
    (p : Pins) :
    (senseTrace s buf j).foldl Pins.after (committedPins s.params.width s.cfg buf' p) =
      committedPins s.params.width s.cfg buf p := by
  rw [senseTrace, List.foldl_append, foldl_after_commitTrace, committedPins_committedPins hbuf]
  rfl

section Pins

variable {s : State} (hlen : 1 ≤ s.length)
include hlen

theorem foldl_after_flushTrace (i : Nat) :
    (flushTrace s (i + 1)).foldl Pins.after s.pins =
      committedPins s.params.width s.cfg (zeroBuf s) { s.pins with senseInput := true } := by
  induction i with
  | zero => simp [flushTrace, foldl_after_commitTrace]
  | succ i ih =>
    rw [flushTrace_succ, List.foldl_append, ih, List.foldl_append, foldl_after_commitTrace,
      committedPins_committedPins (zeroBuf_ne_nil hlen)]
    rfl

theorem foldl_after_passTrace (hflush : 1 ≤ s.params.flushCommits) (j : Nat) :
    (passTrace s (j + 1)).foldl Pins.after s.pins =
      committedPins s.params.width s.cfg (patternAt s j) { s.pins with senseInput := true } := by
  induction j with
  | zero =>
    have hflushed := foldl_after_flushTrace hlen (s.params.flushCommits - 1)
    rw [Nat.sub_add_cancel hflush] at hflushed
    simp [passTrace, hflushed, foldl_after_senseTrace s (patternAt_ne_nil hlen 0)]
  | succ j ih =>
    rw [passTrace_succ, List.foldl_append, ih, foldl_after_senseTrace s (patternAt_ne_nil hlen (j + 1))]

end Pins

/-! ## The states between the commits (R220, R231) -/

/-- The state after `i` zero-flush commits of an AUTOSENSE from `s` (R222). -/
def flushed (s : State) (i : Nat) : State :=
  { s with
    buf := zeroBuf s
    trace := s.trace ++ flushTrace s i
    pins := (flushTrace s i).foldl Pins.after s.pins
    bitCounter := if i = 0 then s.bitCounter else bitBudget s.cfg
    cal := { s.cal with flush := i } }

/-- The state after `j` passes of the propagation loop of an AUTOSENSE from `s` (R225). -/
def passed (s : State) (j : Nat) : State :=
  { s with
    buf := patternAt s j
    trace := s.trace ++ passTrace s j
    pins := (passTrace s j).foldl Pins.after s.pins
    bitCounter := bitBudget s.cfg
    cal := { bank := j, flush := s.params.flushCommits, slot := firstSlot s.cfg s.length }
    senseIn := s.senseIn.drop j
    senseDraws := s.senseDraws + (j - s.senseIn.length) }

section Between

variable {s : State} (hd : DataInv s)
include hd

theorem DataInv.flushed {i : Nat} (hi : i ≤ s.params.flushCommits) : DataInv (flushed s i) where
  params_legal := hd.params_legal
  length_pos := hd.length_pos
  length_le := hd.length_le
  buf_wf := zeroBuf_wf s
  bitLength_le := hd.bitLength_le
  bitCounter_le := by
    change (if i = 0 then s.bitCounter else bitBudget s.cfg) ≤ s.params.width.bits
    split_ifs
    · exact hd.bitCounter_le
    · exact hd.bitLength_le
  bank_le := hd.bank_le
  flush_le := hi

theorem DataInv.passed {j : Nat} (hj : j ≤ s.params.maxBankCount) : DataInv (passed s j) where
  params_legal := hd.params_legal
  length_pos := hd.length_pos
  length_le := hd.length_le
  buf_wf := patternAt_wf s j
  bitLength_le := hd.bitLength_le
  bitCounter_le := hd.bitLength_le
  bank_le := hj
  flush_le := le_rfl

/-- Under the invariant a commit emits its trace and counts the whole budget (R187, R190). -/
theorem runCommit_eq_emitAll :
    runCommit s = setBitCounter (emitAll s (commitTrace s.params.width s.cfg s.buf)) (bitBudget s.cfg) := by
  have hbuf : s.buf ≠ [] := List.length_pos_iff.1 ((wf_iff.1 hd.buf_wf).1 ▸ hd.length_pos)
  rw [runCommit_eq_commitEnd hd, commitEnd_eq, commitCounter_eq hbuf]

end Between

/-! ## The samples (R226) -/

theorem takeSense_eq (s : State) :
    takeSense s = { s with
      senseIn := s.senseIn.tail
      senseDraws := s.senseDraws + (if s.senseIn = [] then 1 else 0) } := by
  unfold takeSense
  split <;> simp [*]

theorem sample_eq (s : State) :
    sample s = { emit s (.readLevel (senseLevel s)) with
      senseIn := s.senseIn.tail
      senseDraws := s.senseDraws + (if s.senseIn = [] then 1 else 0) } := by
  rw [sample, takeSense_eq]
  rfl

/-- After `j` samples the next one is the run's sample `j`. -/
theorem senseLevel_passed (s : State) (j : Nat) : senseLevel (passed s j) = sampleAt s j := by
  simp only [senseLevel, sampleAt, passed, ← List.head?_drop]
  cases s.senseIn.drop j <;> rfl

/-! ## The pseudocode of AUTOSENSE (R220) -/

/-- One pass of the flush loop (R222). -/
def flushCommit (s : State) : State :=
  setCal (emit (runCommit s) (.delay s.params.flushDelayMs)) { s.cal with flush := s.cal.flush + 1 }

theorem flushLoop_succ {s : State} (hd : DataInv s) (n : Nat) : flushLoop (n + 1) s = flushLoop n (flushCommit s) := by
  simp only [flushLoop, flushCommit, runCommit_eq_emitAll hd]
  rfl

section Pseudocode

variable {s : State} (hd : DataInv s)
include hd

theorem flushCommit_flushed {i : Nat} (hi : i ≤ s.params.flushCommits) :
    flushCommit (flushed s i) = flushed s (i + 1) := by
  rw [flushCommit, runCommit_eq_emitAll (hd.flushed hi)]
  simp [flushed, flushTrace_succ, emitAll, emit, setBitCounter, setCal]

theorem flushLoop_flushed {i n : Nat} (hi : i + n = s.params.flushCommits) :
    flushLoop n (flushed s i) = flushed s s.params.flushCommits := by
  induction n generalizing i with
  | zero => rw [flushLoop, ← hi, Nat.add_zero]
  | succ n ih =>
    rw [flushLoop_succ (hd.flushed (by omega)), flushCommit_flushed hd (by omega), ih (by omega)]

/-- The marker goes into the pattern (R224). -/
theorem marked_flushed :
    setCal (memWrite (flushed s s.params.flushCommits) (firstSlot s.cfg s.length) (elemMarker s.params.width))
      { (flushed s s.params.flushCommits).cal with slot := firstSlot s.cfg s.length, bank := 0 } = passed s 0 := by
  obtain ⟨-, -, -, hflush, -⟩ := hd.params_legal
  simp [flushed, passed, passTrace, patternAt, markerBuf, setCal, memWrite, Nat.one_le_iff_ne_zero.1 hflush]

theorem wholeAutosense_eq_markLoop : wholeAutosense s = markLoop s.params.maxBankCount (passed s 0) := by
  have hflushed : flushLoop s.params.flushCommits (setCal (memFill (emit s .setInputMode) 0#64)
      { s.cal with flush := 0 }) = flushed s s.params.flushCommits := flushLoop_flushed hd (Nat.zero_add _)
  simp only [wholeAutosense, setCal_params, memFill_params, emit_params, emit_cal, hflushed]
  exact congrArg (markLoop s.params.maxBankCount) (marked_flushed hd)

end Pseudocode

/-- A pass up to its sample: the commit of the pattern and the delay are emitted, the marker's slot is cleared, and the
bank is counted (R225). -/
theorem markCommit_eq {s : State} (hd : DataInv s) (hbank : s.cal.bank < s.params.maxBankCount) :
    markCommit s = setCal (memWrite (setBitCounter
      (emitAll s (commitTrace s.params.width s.cfg s.buf ++ [.delay s.params.senseDelayMs])) (bitBudget s.cfg))
      s.cal.slot 0#64) { s.cal with bank := s.cal.bank + 1 } := by
  rw [markCommit, runCommit_eq_emitAll (hd.calibrated (c := { s.cal with bank := s.cal.bank + 1 }) hbank hd.flush_le)]
  simp [emitAll, emit, setBitCounter, setCal, memWrite]

section Pseudocode

variable {s : State} (hd : DataInv s) {j : Nat} (hj : j < s.params.maxBankCount)
include hd hj

theorem senseLevel_markCommit_passed : senseLevel (markCommit (passed s j)) = sampleAt s j := by
  rw [markCommit_eq (hd.passed hj.le) hj]
  exact senseLevel_passed s j

theorem sample_markCommit_passed : sample (markCommit (passed s j)) = passed s (j + 1) := by
  have hdraws : s.senseDraws + (j - s.senseIn.length) + (if s.senseIn.length ≤ j then 1 else 0) =
      s.senseDraws + (j + 1 - s.senseIn.length) := by split_ifs <;> omega
  rw [sample_eq, senseLevel_markCommit_passed hd hj, markCommit_eq (hd.passed hj.le) hj]
  simp [passed, passTrace_succ, senseTrace, set_firstSlot_patternAt, patternAt_succ, hdraws, emitAll, emit,
    setBitCounter, setCal, memWrite]

end Pseudocode

/-- The loop stops at the pass whose number is the bank count (R228). -/
theorem stops_iff {s : State} (hlegal : s.params.legal) {j : Nat} (hj : j < bankCount s) :
    (sampleAt s j = markLevel s.cfg ∨ j + 1 = s.params.maxBankCount) ↔ j + 1 = bankCount s := by
  obtain ⟨-, hle, hbefore, hlast⟩ := bankCountIsTheFirstMarkerSample s hlegal
  constructor
  · intro hstop
    by_contra hne
    have hlt : j + 1 < bankCount s := by omega
    exact hstop.elim (hbefore j hlt) (by omega)
  · intro hend
    rcases hle.lt_or_eq with hlt | heq
    · have hmark := hlast hlt
      rw [← hend, Nat.add_sub_cancel] at hmark
      exact .inl hmark
    · exact .inr (hend.trans heq)

/-- From pass `j` the propagation loop runs to the pass of the bank count and responds with it. -/
theorem markLoop_passed {s : State} (hd : DataInv s) {j n : Nat} (hj : j < bankCount s)
    (hn : j + n = s.params.maxBankCount) :
    markLoop n (passed s j) = respond (passed s (bankCount s)) .ok (valueOf (bankCount s)) := by
  obtain ⟨-, hle, -⟩ := bankCountIsTheFirstMarkerSample s hd.params_legal
  induction n generalizing j with
  | zero => omega
  | succ n ih =>
    have hlt : j < s.params.maxBankCount := hj.trans_le hle
    have hbank : (markCommit (passed s j)).cal.bank = j + 1 := by rw [markCommit_eq (hd.passed hlt.le) hlt]; rfl
    have hstop : (senseLevel (markCommit (passed s j)) = markLevel (markCommit (passed s j)).cfg ∨
        (markCommit (passed s j)).cal.bank = (markCommit (passed s j)).params.maxBankCount) ↔
          j + 1 = bankCount s := by
      rw [senseLevel_markCommit_passed hd hlt, markCommit_eq (hd.passed hlt.le) hlt]
      exact stops_iff hd.params_legal hj
    simp only [markLoop, hstop, sample_markCommit_passed hd hlt]
    split_ifs with hend
    · rw [hbank, hend]
    · exact ih (by omega) (by omega)

/-- The last pass leaves the state of R223, R228 and R231, but for the response. -/
theorem respond_passed_bankCount {s : State} (hd : DataInv s) :
    respond (passed s (bankCount s)) .ok (valueOf (bankCount s)) = autosenseEnd s := by
  obtain ⟨hpos, -⟩ := bankCountIsTheFirstMarkerSample s hd.params_legal
  obtain ⟨-, -, -, hflush, -⟩ := hd.params_legal
  have hlast : lastSenseBuf s = patternAt s (bankCount s - 1) := by
    unfold lastSenseBuf patternAt
    congr 1
    simp; omega
  have hbuf : patternAt s (bankCount s) = zeroBuf s := if_neg (by omega)
  have hpins := foldl_after_passTrace hd.length_pos hflush (bankCount s - 1)
  rw [Nat.sub_add_cancel hpos, passTrace_bankCount hpos] at hpins
  simp only [autosenseEnd, respond, passed, hlast, hbuf, hpins, passTrace_bankCount hpos,
    commitCounter_eq (patternAt_ne_nil hd.length_pos _), committedPins]

/-- Settles O56: the flush loop, the marker and the passes up to the bank count, one after another. -/
theorem autosensePseudocodeHasTheClosedForm : Obligations.AutosensePseudocodeHasTheClosedForm := by
  intro s hinv
  obtain ⟨hd, -⟩ := inv_iff.1 hinv
  obtain ⟨hpos, -⟩ := bankCountIsTheFirstMarkerSample s hd.params_legal
  rw [wholeAutosense_eq_markLoop hd, markLoop_passed hd hpos (Nat.zero_add _), respond_passed_bankCount hd]

/-! ## The rows of the state machine, one step each (R230) -/

/-- Some number of steps leads from `s` to `t`. -/
def Reaches (s t : State) : Prop := ∃ n, stepN n s = .next t

theorem Reaches.refl (s : State) : Reaches s s := ⟨0, rfl⟩

theorem Reaches.trans {s t u : State} (h : Reaches s t) (h' : Reaches t u) : Reaches s u := by
  obtain ⟨m, hm⟩ := h
  obtain ⟨n, hn⟩ := h'
  exact ⟨m + n, (stepN_add hm n).trans hn⟩

theorem ReachesWithin.reaches {n : Nat} {s t : State} (h : ReachesWithin n s t) : Reaches s t := by
  obtain ⟨m, -, hm⟩ := h
  exact ⟨m, hm⟩

/-- The block is unmarked and its host waits, so the sequencer steps. No row of the sequencer changes that. -/
def Attended (s : State) : Prop := s.faulted = false ∧ hostWaits s = true

section Rows

variable {s t u : State} {sub : CalibSub}

/-- A calibrator sub-state's row is the block's own next step. -/
theorem Attended.row (h : Attended s) (hrow : calibStep sub (setSeq s (.calib sub)) = .next t)
    (hrest : Reaches t u) : Reaches (setSeq s (.calib sub)) u := by
  obtain ⟨hunmarked, hwaits⟩ := h
  obtain ⟨n, hn⟩ := hrest
  have hstep : step (setSeq s (.calib sub)) = .next t :=
    (step_of_waiting (s := setSeq s (.calib sub)) hunmarked (by simp) hwaits).trans hrow
  exact ⟨n + 1, (stepN_succ_of_step hstep n).trans hn⟩

theorem Attended.commit (h : Attended s) (hd : DataInv s) (ret : Ret) :
    Reaches (startCommit s ret) (cmDone ret (runCommit s)) :=
  runCommit_eq_commitEnd hd ▸ (commit_reached hd h.1 h.2 ret).reaches

theorem Attended.ofRunCommit (h : Attended s) (hd : DataInv s) : Attended (runCommit s) := by
  rw [runCommit_eq_emitAll hd]
  exact h

theorem Attended.ofMarkCommit (h : Attended s) (hd : DataInv s) (hbank : s.cal.bank < s.params.maxBankCount) :
    Attended (markCommit s) := by
  rw [markCommit_eq hd hbank]
  exact h

/-- AS_FLUSH, a commit and AS_FLUSH_DELAY are one pass of the pseudocode's flush loop (R222). -/
theorem flushCommit_reached (h : Attended s) (hd : DataInv s) (hflush : s.cal.flush ≠ s.params.flushCommits) :
    Reaches (setSeq s (.calib .flush)) (setSeq (flushCommit s) (.calib .flush)) := by
  have hstart : asFlush (setSeq s (.calib .flush)) = startCommit s .flushDelay := if_neg hflush
  have hdelay : asFlushDelay (setSeq (runCommit s) (.calib .flushDelay)) =
      setSeq (flushCommit s) (.calib .flush) := by
    rw [flushCommit, runCommit_eq_emitAll hd]
    rfl
  exact h.row (congrArg Host.Outcome.next hstart) ((h.commit hd .flushDelay).trans
    ((h.ofRunCommit hd).row (congrArg Host.Outcome.next hdelay) (.refl _)))

/-- AS_LOOP, a commit, AS_CLEAR and AS_SETTLE are one pass of the propagation loop up to its sample (R225). -/
theorem markCommit_reached (h : Attended s) (hd : DataInv s) (hbank : s.cal.bank < s.params.maxBankCount) :
    Reaches (setSeq s (.calib .loop)) (setSeq (markCommit s) (.calib .sample)) := by
  have hcounted : Attended (setCal s { s.cal with bank := s.cal.bank + 1 }) := h
  have hdata : DataInv (setCal s { s.cal with bank := s.cal.bank + 1 }) := hd.calibrated hbank hd.flush_le
  have hcommitted := hcounted.ofRunCommit hdata
  have hcleared (slot : Nat) : Attended (memWrite (runCommit (setCal s { s.cal with bank := s.cal.bank + 1 })) slot
    0#64) := hcommitted
  exact h.row rfl ((hcounted.commit hdata .clear).trans
    (hcommitted.row (sub := .clear) rfl ((hcleared _).row (sub := .settle) rfl (.refl _))))

theorem sample_setSeq (s : State) (q : SeqState) : sample (setSeq s q) = setSeq (sample s) q := by
  rw [sample_eq, sample_eq]
  rfl

/-- AS_SAMPLE stops or loops as the propagation loop does (R226 to R228). -/
theorem asSample_setSeq (s : State) : asSample (setSeq s (.calib .sample)) =
    if senseLevel s = markLevel s.cfg ∨ s.cal.bank = s.params.maxBankCount then
      setSeq (respond (sample s) .ok (valueOf s.cal.bank)) .idle
    else setSeq (sample s) (.calib .loop) := by
  rw [asSample, sample_setSeq]
  rfl

end Rows

/-! ## The whole AUTOSENSE (R220, R230) -/

section Whole

variable {s : State} (h : Attended s) (hd : DataInv s)
include h hd

theorem flushed_reached {i : Nat} (hi : i ≤ s.params.flushCommits) :
    Reaches (setSeq (flushed s 0) (.calib .flush)) (setSeq (flushed s i) (.calib .flush)) := by
  induction i with
  | zero => exact .refl _
  | succ i ih =>
    have hle : i ≤ s.params.flushCommits := Nat.le_of_succ_le hi
    have hflushed : Attended (flushed s i) := h
    have hnext := flushCommit_reached hflushed (hd.flushed hle) (Nat.ne_of_lt hi)
    rw [flushCommit_flushed hd hle] at hnext
    exact (ih hle).trans hnext

/-- After the last flush commit AS_FLUSH goes on to AS_MARK, which puts the marker into the pattern (R222, R224). -/
theorem marked_reached :
    Reaches (setSeq (flushed s s.params.flushCommits) (.calib .flush)) (setSeq (passed s 0) (.calib .loop)) := by
  have hflushed : Attended (flushed s s.params.flushCommits) := h
  have hflush : asFlush (setSeq (flushed s s.params.flushCommits) (.calib .flush)) =
      setSeq (flushed s s.params.flushCommits) (.calib .mark) := if_pos rfl
  have hmark : asMark (setSeq (flushed s s.params.flushCommits) (.calib .mark)) =
      .next (setSeq (passed s 0) (.calib .loop)) := by
    obtain ⟨t, ht⟩ := asMark_progress (s := setSeq (flushed s s.params.flushCommits) (.calib .mark))
      (dataInv_setSeq.2 (hd.flushed le_rfl))
    obtain ⟨-, rfl⟩ := asMark_eq_next ht
    rw [ht, ← marked_flushed hd]
    rfl
  exact hflushed.row (congrArg Host.Outcome.next hflush) (hflushed.row hmark (.refl _))

/-- From AS_LOOP the machine runs the rest of the pseudocode's propagation loop. -/
theorem markLoop_reached {j n : Nat} (hj : j < s.params.maxBankCount) (hn : j + n = s.params.maxBankCount) :
    Reaches (setSeq (passed s j) (.calib .loop)) (setSeq (markLoop n (passed s j)) .idle) := by
  induction n generalizing j with
  | zero => omega
  | succ n ih =>
    have hpassed : Attended (passed s j) := h
    have hdata := hd.passed hj.le
    have hbank : (markCommit (passed s j)).cal.bank = (markCommit (passed s j)).params.maxBankCount ↔
        j + 1 = s.params.maxBankCount := by rw [markCommit_eq hdata hj]; rfl
    refine (markCommit_reached hpassed hdata hj).trans
      ((hpassed.ofMarkCommit hdata hj).row (congrArg Host.Outcome.next (asSample_setSeq _)) ?_)
    simp only [markLoop]
    split_ifs with hstop
    · exact .refl _
    · have hne : j + 1 ≠ s.params.maxBankCount := fun hmax => hstop (.inr (hbank.2 hmax))
      rw [sample_markCommit_passed hd hj]
      exact ih (by omega) (by omega)

/-- An AUTOSENSE that has started runs to the end of its pseudocode. -/
theorem wholeAutosense_reached : Reaches (setSeq s (.calib .input)) (setSeq (wholeAutosense s) .idle) := by
  obtain ⟨-, -, hmax, -⟩ := hd.params_legal
  have hinput : Attended (emit s .setInputMode) := h
  rw [wholeAutosense_eq_markLoop hd]
  refine h.row rfl (hinput.row (sub := .zero) rfl ?_)
  exact ((flushed_reached h hd le_rfl).trans (marked_reached h hd)).trans
    (markLoop_reached h hd hmax (Nat.zero_add _))

end Whole

/-- Settles O55: the acceptance starts the calibrator, which runs the pseudocode's loops row by row, and these have the
closed form of O56. -/
theorem autosenseCompletesWithItsTrace : Obligations.AutosenseCompletesWithItsTrace := by
  intro s hinv hready hwaits
  obtain ⟨hd, -⟩ := inv_iff.1 hinv
  obtain ⟨n, hn⟩ := wholeAutosense_reached ⟨hready.2, hwaits⟩ hd
  have hend : setSeq (wholeAutosense s) .idle = autosenseEnd s := by
    rw [autosensePseudocodeHasTheClosedForm s hinv, ← hready.1]
    rfl
  have hstart : exec .autosense s = .next (setSeq s (.calib .input)) :=
    show execAutosense s = _ from accept_of_ready hready
  exact ⟨setSeq s (.calib .input), n, hstart, hend ▸ hn⟩

end Sys2Proof.Machine

/-! # Exceptions (spec/60_exceptions.md R251, R252, R257): the block stops only at HostOverlap, and an error changes no
state -/

namespace Sys2Proof.Machine

/-! ## The only stop (R251, R257) -/

theorem present_progress_of_ready {s : State} (hready : Ready s) (txn : Transaction) :
    ∃ t, present txn s = .next t := by
  obtain ⟨run, hpresent⟩ := present_eq_accept txn
  exact ⟨run s, (hpresent s).trans (accept_of_ready hready)⟩

/-- An unmarked busy block steps whatever its host does: the next request waits, is due and overlaps, or comes
nearer. -/
theorem step_progress_of_busy {s : State} (hinv : Inv s) (hf : s.faulted = false) (hq : s.seq ≠ .idle) :
    ∃ t, step s = .next t := by
  cases hi : s.inbox with
  | nil => rw [step_of_nothing_presented hf hi]; exact sequencerStep_progress hinv
  | cons r rest =>
    obtain ⟨txn, early⟩ := r
    match early with
    | none =>
      rw [step_of_waiting hf hq (by simp [hostWaits, hi])]
      exact sequencerStep_progress hinv
    | some 0 => exact ⟨_, step_of_overlap hf hq hi⟩
    | some (n + 1) => rw [step_of_not_due hf hq hi]; exact sequencerStep_progress (setInbox_inv hinv _)

theorem step_progress {s : State} (hinv : Inv s) (hf : s.faulted = false) : ∃ t, step s = .next t := by
  by_cases hq : s.seq = .idle
  · cases hi : s.inbox with
    | nil => exact ⟨s, (step_of_nothing_presented hf hi).trans (sequencerStep_of_idle hq)⟩
    | cons r rest =>
      have hready : Ready (setInbox s rest) := ⟨hq, hf⟩
      rw [step_of_ready ⟨hq, hf⟩ hi]
      exact present_progress_of_ready hready r.txn
  · exact step_progress_of_busy hinv hf hq

/-- Settles O18: a marked block answers HostOverlap, and an unmarked one always has a next state under the invariant. -/
theorem onlyHostOverlapStopsTheBlock : Obligations.OnlyHostOverlapStopsTheBlock := by
  intro s hinv
  refine ⟨step_progress hinv, ?_⟩
  cases hf : s.faulted with
  | true => simp [step_of_faulted hf, eq_comm]
  | false =>
    obtain ⟨t, ht⟩ := step_progress hinv hf
    simp [ht]

/-! ## An error changes no state (R252) -/

/-- Whatever status other than OK the step from `s` to `t` reports, `t` is the raise of that status in `s`. -/
def ErrorsAreRaised (s t : State) : Prop :=
  ∀ r : Response, t.responses = s.responses ++ [r] → r.status ≠ .ok → t = raise s r.status

theorem errorsAreRaised_raise (s : State) (st : Status) : ErrorsAreRaised s (raise s st) := by
  intro r hr _
  obtain rfl : ⟨st, 0#64⟩ = r := by simpa using hr
  rfl

/-- An OK response is no error, whatever `u` has stored before it. -/
theorem errorsAreRaised_respond_ok {s u : State} (v : BitVec 64) (hu : u.responses = s.responses := by rfl) :
    ErrorsAreRaised s (respond u .ok v) := by
  intro r hr hstatus
  obtain rfl : ⟨.ok, v⟩ = r := by simpa [hu] using hr
  exact absurd rfl hstatus

theorem errorsAreRaised_of_silent {s t : State} (ht : t.responses = s.responses) : ErrorsAreRaised s t := by
  intro r hr
  simp [ht] at hr

/-- The arm of each command makes its checks before it writes: it raises, or responds OK, or starts the sequencer. -/
theorem exec_eq_accept_errorsAreRaised (i : Instr) :
    ∃ run : State → State, (∀ s, exec i s = accept s run) ∧ ∀ s, ErrorsAreRaised s (run s) := by
  cases i <;> refine ⟨_, fun _ => rfl, fun s => ?_⟩
  case setbitlen n =>
    split_ifs
    · exact errorsAreRaised_raise s _
    · exact errorsAreRaised_respond_ok _
  case resize n =>
    split_ifs
    · exact errorsAreRaised_raise s _
    · exact errorsAreRaised_raise s _
    · exact errorsAreRaised_respond_ok _
  case write idx d =>
    split_ifs
    · exact errorsAreRaised_raise s _
    · exact errorsAreRaised_respond_ok _
  case read idx =>
    split
    · exact errorsAreRaised_raise s _
    · exact errorsAreRaised_respond_ok _
  case overwrite n ds =>
    split_ifs
    · exact errorsAreRaised_raise s _
    · exact errorsAreRaised_raise s _
    · exact errorsAreRaised_raise s _
    · exact errorsAreRaised_respond_ok _
  case commit | autosense => exact errorsAreRaised_of_silent rfl
  all_goals exact errorsAreRaised_respond_ok _

theorem exec_errorsAreRaised {i : Instr} {s t : State} (h : exec i s = .next t) : ErrorsAreRaised s t := by
  obtain ⟨run, hrun, hraised⟩ := exec_eq_accept_errorsAreRaised i
  rcases exec_eq_next_of_run hrun h with ⟨-, rfl⟩ | ⟨-, rfl⟩
  · exact hraised s
  · exact errorsAreRaised_of_silent rfl

/-- Settles O26: every arm reports its errors by a raise, and so does a ready block an illegal transaction. -/
theorem errorChangesNoState : Obligations.ErrorChangesNoState :=
  ⟨fun _ _ _ r h hr hstatus => exec_errorsAreRaised h r hr hstatus, fun _ hready => accept_of_ready hready⟩

end Sys2Proof.Machine
